-- ==== Sys2Proof/Word.lean ====
section
/-! DEFINITION. The word types of LED3D-CP and the two colour triples (00_scope.md R10, R14, R15). -/

namespace Sys2Proof

/-- `u8` of 00_scope.md R10. -/
abbrev Byte := BitVec 8

/-- `u16` of 00_scope.md R10: LED indices, counts and register numbers. -/
abbrev Half := BitVec 16

/-- A command word (30_encoding.md R84). -/
abbrev CmdWord := BitVec 64

/-- A response word (30_encoding.md R87). -/
abbrev RspWord := BitVec 32

/-- `HSVColor` of 00_scope.md R14: a plain value with no identity beyond its three fields. -/
structure Hsv where
  hue : Byte
  sat : Byte
  val : Byte
  deriving DecidableEq, Repr

/-- `RGBColor` of 00_scope.md R15. -/
structure Rgb where
  red : Byte
  green : Byte
  blue : Byte
  deriving DecidableEq, Repr

end Sys2Proof
end

