-- ==== Sys2Proof/Syntax.lean ====
section
/-! DEFINITION. The thirteen commands of LED3D-CP as syntax (30_encoding.md R85, R89, R94), one constructor per
row of spec/opcode_table.json, and the pseudo-commands of R95. -/

namespace Sys2Proof

/-- The commands of 30_encoding.md R89, with the operands of R94. -/
inductive Instr where
  /-- `NOP` (42_framebuffer.md R161). -/
  | nop
  /-- `CVTRB h, s, v` (40_hsv2rgb_rainbow.md R121). -/
  | cvtrb (col : Hsv)
  /-- `CVTSP h, s, v` (41_hsv2rgb_spectrum.md R147). -/
  | cvtsp (col : Hsv)
  /-- `SETUP n` (42_framebuffer.md R162). -/
  | setup (count : Half)
  /-- `RESIZE n` (42_framebuffer.md R163). -/
  | resize (count : Half)
  /-- `SETLED i, h, s, v` (42_framebuffer.md R164). -/
  | setled (index : Half) (col : Hsv)
  /-- `GETLED i` (42_framebuffer.md R165). -/
  | getled (index : Half)
  /-- `FILL h, s, v` (42_framebuffer.md R166). -/
  | fill (col : Hsv)
  /-- `FILLR start, len, h, s, v` (42_framebuffer.md R167). -/
  | fillr (start len : Half) (col : Hsv)
  /-- `RAINBOW d, h, s, v` (42_framebuffer.md R168). The operand is the whole field `b`, whose high byte a
  well-formed command leaves zero (R85, R94: "`b=d` (0 to 255)"). -/
  | rainbow (b : Half) (col : Hsv)
  /-- `RDCTL r` (42_framebuffer.md R169). -/
  | rdctl (reg : Half)
  /-- `WRCTL r, x` (42_framebuffer.md R170). -/
  | wrctl (reg value : Half)
  /-- `UPLOAD` (43_packetizer.md R217). -/
  | upload
  deriving DecidableEq, Repr

/-- The pseudo-commands of 30_encoding.md R95. -/
inductive Pseudo where
  /-- `SETBRI x` -/
  | setbri (x : Half)
  /-- `SETLAW RAINBOW` -/
  | setlawRainbow
  /-- `SETLAW SPECTRUM` -/
  | setlawSpectrum
  /-- `FILLSOLID h, s, v` -/
  | fillsolid (col : Hsv)
  /-- `FILLSOLID start, len, h, s, v` -/
  | fillsolidRange (start len : Half) (col : Hsv)
  /-- `SHOW` -/
  | showFrame
  deriving DecidableEq, Repr

end Sys2Proof
end

