-- ==== Sys2Proof/WellFormed.lean ====
section
/-! DEFINITION. Which command terms have an encoding (30_encoding.md R85, R94). Every operand but one has a type
as wide as its field, so it is well formed at every value; the hue step of `RAINBOW` is the low byte of a 16-bit
field whose high byte must be zero. -/

namespace Sys2Proof

/-- A command that R94's assembler accepts: the hue step of `RAINBOW` is 0 to 255. -/
def Instr.WellFormed : Instr → Bool
  | .nop => true
  | .cvtrb _ => true
  | .cvtsp _ => true
  | .setup _ => true
  | .resize _ => true
  | .setled _ _ => true
  | .getled _ => true
  | .fill _ => true
  | .fillr _ _ _ => true
  | .rainbow b _ => b.toNat ≤ 255
  | .rdctl _ => true
  | .wrctl _ _ => true
  | .upload => true

end Sys2Proof
end

