-- ==== Sys2Proof/Decode.lean ====
section
/-! DEFINITION. Decoding and encoding of command words (30_encoding.md R84 to R96). A word is decoded in the
order of R92: first the opcode, then the must-be-zero bits; the later tests belong to the commands. -/

namespace Sys2Proof

/-! ### The fields of a command word (30_encoding.md R84) -/

/-- `op`, bits 63 to 56. -/
def fieldOp (w : CmdWord) : Byte := w.extractLsb' 56 8

/-- `a`, bits 55 to 40. -/
def fieldA (w : CmdWord) : Half := w.extractLsb' 40 16

/-- `b`, bits 39 to 24. -/
def fieldB (w : CmdWord) : Half := w.extractLsb' 24 16

/-- The colour fields `c0` (bits 23 to 16), `c1` (15 to 8), `c2` (7 to 0) as the colour they stand for:
`col = hsv(c0, c1, c2)`. -/
def fieldCol (w : CmdWord) : Hsv :=
  { hue := w.extractLsb' 16 8, sat := w.extractLsb' 8 8, val := w.extractLsb' 0 8 }

/-! ### The opcode map (30_encoding.md R89) -/

/-- The thirteen opcodes by name. -/
inductive Opcode where
  | nop | cvtrb | cvtsp | setup | resize | setled | getled | fill | fillr | rainbow | rdctl | wrctl | upload
  deriving DecidableEq, Repr

/-- One row of the table of R89: a word selects the row when its `op` field is `op` (R88); `mbz` is the set of
bits that must then be zero. -/
structure OpRow where
  op : Byte
  code : Opcode
  mbz : CmdWord
  deriving DecidableEq, Repr

/-- The table of R89, in its order. -/
def opTable : List OpRow :=
  [ { op := 0x00#8, code := .nop,     mbz := 0x00FFFFFFFFFFFFFF#64 },
    { op := 0x01#8, code := .cvtrb,   mbz := 0x00FFFFFFFF000000#64 },
    { op := 0x02#8, code := .cvtsp,   mbz := 0x00FFFFFFFF000000#64 },
    { op := 0x10#8, code := .setup,   mbz := 0x000000FFFFFFFFFF#64 },
    { op := 0x11#8, code := .resize,  mbz := 0x000000FFFFFFFFFF#64 },
    { op := 0x12#8, code := .setled,  mbz := 0x000000FFFF000000#64 },
    { op := 0x13#8, code := .getled,  mbz := 0x000000FFFFFFFFFF#64 },
    { op := 0x14#8, code := .fill,    mbz := 0x00FFFFFFFF000000#64 },
    { op := 0x15#8, code := .fillr,   mbz := 0x0000000000000000#64 },
    { op := 0x16#8, code := .rainbow, mbz := 0x00FFFFFF00000000#64 },
    { op := 0x20#8, code := .rdctl,   mbz := 0x000000FFFFFFFFFF#64 },
    { op := 0x21#8, code := .wrctl,   mbz := 0x0000000000FFFFFF#64 },
    { op := 0x30#8, code := .upload,  mbz := 0x00FFFFFFFFFFFFFF#64 } ]

/-- The row an opcode byte selects, if any (R88). -/
def lookupOp (op : Byte) : Option OpRow := opTable.find? (fun row => row.op == op)

/-- The operands of R86, each a contiguous field of the word taken as it stands. -/
def assemble (c : Opcode) (w : CmdWord) : Instr :=
  match c with
  | .nop => .nop
  | .cvtrb => .cvtrb (fieldCol w)
  | .cvtsp => .cvtsp (fieldCol w)
  | .setup => .setup (fieldA w)
  | .resize => .resize (fieldA w)
  | .setled => .setled (fieldA w) (fieldCol w)
  | .getled => .getled (fieldA w)
  | .fill => .fill (fieldCol w)
  | .fillr => .fillr (fieldA w) (fieldB w) (fieldCol w)
  | .rainbow => .rainbow (fieldB w) (fieldCol w)
  | .rdctl => .rdctl (fieldA w)
  | .wrctl => .wrctl (fieldA w) (fieldB w)
  | .upload => .upload

/-- Why a word is no command. -/
inductive DecodeError where
  /-- `op` is not one of the thirteen opcodes (R90). -/
  | badOpcode
  /-- a must-be-zero bit of the opcode is set (R91). -/
  | badField
  deriving DecidableEq, Repr

/-- Tests (1) and (2) of the decode order of 30_encoding.md R92. Total on all `2^64` words. -/
def decode (w : CmdWord) : Except DecodeError Instr :=
  match lookupOp (fieldOp w) with
  | none => .error .badOpcode
  | some row => if w &&& row.mbz ≠ 0#64 then .error .badField else .ok (assemble row.code w)

/-- The instruction the decoder reads from a word of `nbits` bits numbered as spec/opcode_table.json numbers
them. A command is one 64-bit word that arrives whole on the command channel (R80, R84): there is no byte order
to choose. Bits above `nbits` are zero. -/
def decodeTableWord (nbits w : Nat) : Option Instr :=
  match decode (BitVec.ofNat 64 (w % 2 ^ nbits)) with
  | .ok i => some i
  | .error _ => none

/-! ### The encoder (30_encoding.md R84, R94) -/

/-- A command word from its fields, `op` in the high bits. -/
def packWord (op : Byte) (a b : Half) (col : Hsv) : CmdWord :=
  op ++ a ++ b ++ col.hue ++ col.sat ++ col.val

/-- The zero colour, for the commands that use no colour field. -/
def noColour : Hsv := { hue := 0#8, sat := 0#8, val := 0#8 }

/-- The encodings of R94. -/
def encode : Instr → CmdWord
  | .nop => packWord 0x00#8 0#16 0#16 noColour
  | .cvtrb col => packWord 0x01#8 0#16 0#16 col
  | .cvtsp col => packWord 0x02#8 0#16 0#16 col
  | .setup count => packWord 0x10#8 count 0#16 noColour
  | .resize count => packWord 0x11#8 count 0#16 noColour
  | .setled index col => packWord 0x12#8 index 0#16 col
  | .getled index => packWord 0x13#8 index 0#16 noColour
  | .fill col => packWord 0x14#8 0#16 0#16 col
  | .fillr start len col => packWord 0x15#8 start len col
  | .rainbow b col => packWord 0x16#8 0#16 b col
  | .rdctl reg => packWord 0x20#8 reg 0#16 noColour
  | .wrctl reg value => packWord 0x21#8 reg value noColour
  | .upload => packWord 0x30#8 0#16 0#16 noColour

/-- The one real command a pseudo-command stands for (30_encoding.md R95). -/
def Pseudo.expand : Pseudo → Instr
  | .setbri x => .wrctl 2#16 x
  | .setlawRainbow => .wrctl 3#16 0#16
  | .setlawSpectrum => .wrctl 3#16 1#16
  | .fillsolid col => .fill col
  | .fillsolidRange start len col => .fillr start len col
  | .showFrame => .upload

end Sys2Proof
end

