-- ==== Sys2Proof/Machine/Flags.lean ====
section
/-! DEFINITION. The block has no flags and no condition codes (10_state.md R23). What takes their place is the
status byte of a response (30_encoding.md R87; 60_exceptions.md R241); this file holds it. -/

namespace Sys2Proof.Machine

/-- The outcome of a command (60_exceptions.md R241). -/
inductive Status where
  | ok
  | errOpcode
  | errField
  | errIndex
  | errCount
  | errReg
  deriving DecidableEq, Repr

/-- The code of a status (60_exceptions.md R241); no other code is ever produced. -/
def Status.code : Status → Byte
  | .ok => 0x00#8
  | .errOpcode => 0x01#8
  | .errField => 0x02#8
  | .errIndex => 0x03#8
  | .errCount => 0x04#8
  | .errReg => 0x05#8

/-- The response word: the status in bits 31 to 24, the data in bits 23 to 0 (30_encoding.md R87). -/
def responseWord (st : Status) (data : BitVec 24) : RspWord := st.code ++ data

end Sys2Proof.Machine
end

