-- ==== Sys2Proof/Config.lean ====
section
/-! DEFINITION. The configuration of the block: the parameters of 00_scope.md R6 to R9 and of
93_implementation_defined.md part 2, as plain data. Their default values, the derived quantities and the
well-formedness check stand in Machine/Params.lean. -/

namespace Sys2Proof

/-- The two ramps a rainbow sector may use, `third` and `twoThirds` (40_hsv2rgb_rainbow.md R114). -/
inductive Ramp where
  | third
  | twoThirds
  deriving DecidableEq, Repr

/-- One entry of the sector table (40_hsv2rgb_rainbow.md R115): a constant, or a constant plus or minus a ramp
in 8-bit arithmetic (00_scope.md R11). -/
inductive ChannelTerm where
  /-- the constant alone -/
  | const (c : Byte)
  /-- `add8(c, ramp)` -/
  | plus (c : Byte) (x : Ramp)
  /-- `sub8(c, ramp)` -/
  | minus (c : Byte) (x : Ramp)
  deriving DecidableEq, Repr

/-- One row of the sector table of 40_hsv2rgb_rainbow.md R115. -/
structure SectorRow where
  r0 : ChannelTerm
  g0 : ChannelTerm
  b0 : ChannelTerm
  deriving DecidableEq, Repr

/-- `SPECTRUM_SECTION3` (41_hsv2rgb_spectrum.md R145; 92_eei_decisions.md D11): what the spectrum law does with
hue 192 to 255. `asSection2` is the block's value. `prescale` is D11's other total choice: the hue is first
replaced by `scale8(hue, 191)`, which makes section 3 unreachable. -/
inductive SpectrumSection3 where
  | asSection2
  | prescale
  deriving DecidableEq, Repr

/-- The parameters a model keeps in its configuration (00_scope.md R6, R7, R9; 40_hsv2rgb_rainbow.md R115).
Fixed for the life of the block (10_state.md R35). -/
structure Config where
  /-- `MAX_BYTES`, the size of every packet in bytes (R6). -/
  maxBytes : Nat
  /-- `LED_MAX`, the depth of the FrameBuffer (R7). -/
  ledMax : Nat
  /-- `DEFAULT_HSV`, what `SETUP` writes to every entry (R9). -/
  defaultHsv : Hsv
  /-- `RESIZE_FILL`, what `RESIZE` writes to new entries (R9). -/
  resizeFill : Hsv
  /-- `BRIGHTNESS_INIT`, the reset value of `BRIGHT` (R9). -/
  brightnessInit : Byte
  /-- `LAW_INIT`, the reset value of `LAW` (R9). -/
  lawInit : BitVec 1
  /-- `START_MARKER`, offset 0 of every packet (R9; 20_memory.md R56). -/
  startMarker : Byte
  /-- `TYPE_MARKER`, offset 1 of every packet (R9; 20_memory.md R56). -/
  typeMarker : Byte
  /-- `END_MARKER`, the last byte of every packet (R9; 20_memory.md R56). -/
  endMarker : Byte
  /-- `ONE_THIRD`, the source's `256/3` (R9; 40_hsv2rgb_rainbow.md R114). -/
  oneThird : Byte
  /-- `TWO_THIRDS`, the source's `512/3` (R9; 40_hsv2rgb_rainbow.md R114). -/
  twoThirds : Byte
  /-- `SPECTRUM_SECTION3` (R9, R145). -/
  section3 : SpectrumSection3
  /-- `RAINBOW_TABLE` (R115), one row per sector. -/
  rainbowTable : Vector SectorRow 8
  deriving DecidableEq, Repr

end Sys2Proof
end

