-- ==== Sys2Proof/Machine/Params.lean ====
section
/-! DEFINITION. The quantities derived from the configuration, the well-formedness check and the default
configuration (00_scope.md R6 to R9; 40_hsv2rgb_rainbow.md R115). -/

namespace Sys2Proof

/-! ### Derived quantities (00_scope.md R6) -/

/-- `OVERHEAD`: six header bytes and one footer byte (R6). -/
def overhead : Nat := 7

/-- `PAYLOAD_CAP = MAX_BYTES - 7`, bytes in the payload region. -/
def Config.payloadCap (c : Config) : Nat := c.maxBytes - overhead

/-- `FILL_LIMIT = MAX_BYTES - 7 - 3`, the bound of the fill loop. -/
def Config.fillLimit (c : Config) : Nat := c.maxBytes - overhead - 3

/-- `LEDS_PER_PACKET = floor(PAYLOAD_CAP / 3)`. -/
def Config.ledsPerPacket (c : Config) : Nat := c.payloadCap / 3

/-- `total_packets(count) = ceil(3 * count / PAYLOAD_CAP)` (43_packetizer.md R200). -/
def Config.totalPackets (c : Config) (count : Nat) : Nat :=
  (3 * count + c.payloadCap - 1) / c.payloadCap

/-- The configurations a model accepts (00_scope.md R8 (a), (b), (c)). -/
abbrev Config.WellFormed (c : Config) : Prop :=
  (10 ≤ c.maxBytes ∧ c.maxBytes ≤ 65542) ∧ c.ledMax ≤ 65535 ∧ c.totalPackets c.ledMax ≤ 255

/-! ### Default values -/

/-- The sector table of 40_hsv2rgb_rainbow.md R115, sectors 0 to 7 (from general knowledge, GK1; PRESUMED,
notes/assumptions/11.md; unsafe). -/
def defaultRainbowTable : Vector SectorRow 8 :=
  #v[
    { r0 := .minus 255#8 .third,     g0 := .plus 0#8 .third,        b0 := .const 0#8 },
    { r0 := .const 171#8,            g0 := .plus 85#8 .third,       b0 := .const 0#8 },
    { r0 := .minus 171#8 .twoThirds, g0 := .plus 170#8 .third,      b0 := .const 0#8 },
    { r0 := .const 0#8,              g0 := .minus 255#8 .third,     b0 := .plus 0#8 .third },
    { r0 := .const 0#8,              g0 := .minus 171#8 .twoThirds, b0 := .plus 85#8 .twoThirds },
    { r0 := .plus 0#8 .third,        g0 := .const 0#8,              b0 := .minus 255#8 .third },
    { r0 := .plus 85#8 .third,       g0 := .const 0#8,              b0 := .minus 171#8 .third },
    { r0 := .plus 170#8 .third,      g0 := .const 0#8,              b0 := .minus 85#8 .third }
  ]

/-- The default configuration (93_implementation_defined.md part 2). DESIGN CHOICE of the spec for every
parameter it calls open (notes/assumptions/1.md, 14.md, 15.md). -/
def Config.default : Config :=
  { maxBytes := 1400
    ledMax := 65535
    defaultHsv := { hue := 16#8, sat := 16#8, val := 16#8 }
    resizeFill := { hue := 0#8, sat := 0#8, val := 0#8 }
    brightnessInit := 255#8
    lawInit := 0#1
    startMarker := 0x9C#8
    typeMarker := 0xDA#8
    endMarker := 0x36#8
    oneThird := 85#8
    twoThirds := 170#8
    section3 := .asSection2
    rainbowTable := defaultRainbowTable }

end Sys2Proof
end

