-- ==== Sys2Proof/Machine/State.lean ====
section
/-! DEFINITION. The state of the block as plain data (10_state.md R20 to R37), the reasons a step can stop, and the
machine right after reset. -/

namespace Sys2Proof.Machine

/-- A memory as (address, contents) pairs, in one canonical form: see `Memory.wf` in Machine/Ops.lean. The
FrameBuffer space is addressed by LED index and holds whole entries (20_memory.md R50(a), R54). -/
abbrev Memory (α : Type) := List (Nat × α)

/-- The answer of the Transport to one send (43_packetizer.md R220). -/
inductive SendResult where
  | ok
  | fail
  deriving DecidableEq, Repr

/-- One byte transferred on the transmit channel with its side bands (43_packetizer.md R218, R221). -/
structure Beat where
  /-- `tx_data` -/
  data : Byte
  /-- `tx_last`: byte `MAX_BYTES - 1` of its packet -/
  last : Bool
  /-- `tx_sof`: the packet is the first of its frame -/
  sof : Bool
  /-- `tx_eof`: the packet is the last of its frame -/
  eof : Bool
  deriving DecidableEq, Repr

/-- The transient state of a running `UPLOAD` (10_state.md R22, R33; 43_packetizer.md R210, R221). -/
structure Upload where
  /-- `seq`: one-based number of the packet under way. -/
  seq : Byte
  /-- `cur`: index of the next FrameBuffer entry to serialize. -/
  cur : Half
  /-- `n`: payload bytes written so far into the current packet. -/
  n : Half
  /-- `PKT`: the packet space (20_memory.md R50(b)), one byte per offset; an offset that is not listed holds the
  zero that R211 writes first. -/
  pkt : List Host.Cell
  /-- `failed`: sends of this frame that returned `fail`. -/
  failed : Byte
  /-- how many bytes of `PKT` the Transport has taken (R221). -/
  pos : Nat
  deriving DecidableEq, Repr

/-- The state of the machine. -/
structure State where
  /-- The configuration, carried along and never changed (10_state.md R35; DESIGN CHOICE,
  notes/assumptions/1.md). -/
  cfg : Config
  /-- `LEDCOUNT`, control register 0 (R25). -/
  ledCount : Half
  /-- `TOTALPKTS`, control register 1 (R26). -/
  totalPkts : Byte
  /-- `BRIGHT`, control register 2 (R27). -/
  bright : Byte
  /-- `LAW`, control register 3 (R28): 0 rainbow, 1 spectrum. -/
  law : BitVec 1
  /-- `FB` (R32): the entries that hold a value. -/
  fb : Memory Hsv
  /-- The transient state of a running `UPLOAD` (R22, R33); `none` when no `UPLOAD` runs. -/
  upload : Option Upload
  /-- The response channel (30_encoding.md R81): the response the host has not taken yet. -/
  rsp : Option RspWord
  /-- Input: the reset line `rst` (70_reset_and_hazards.md R270). -/
  rst : Bool
  /-- Input: the command words the host presents, oldest first (30_encoding.md R80). -/
  cmd : List CmdWord
  /-- Input: the host's `rsp_ready` (30_encoding.md R81). -/
  rspReady : Bool
  /-- Input: how many more bytes the Transport takes before it holds `tx_ready` low; `none` when it never does
  (43_packetizer.md R221). -/
  txRoom : Option Nat
  /-- Input: the Transport's answers to the coming sends, oldest first (00_scope.md R5; 43_packetizer.md R222). -/
  txr : List SendResult
  /-- Output: the responses the host has taken, oldest first. -/
  rspTaken : List RspWord
  /-- Output: the bytes the Transport has taken, oldest first. -/
  tx : List Beat
  deriving DecidableEq, Repr

/-- Why the machine stops. The block itself never does (60_exceptions.md R240). -/
inductive Fault where
  /-- `GETLED` or `UPLOAD` reads a visible FrameBuffer entry that holds no value. 10_state.md R37(c) says that this
  cannot happen, and the invariant of Safety.lean rules it out in every run. Safe: the hardware would read the
  unspecified content of the cell (R36). -/
  | unwrittenEntry
  deriving DecidableEq, Repr

/-- Why the model gives no next state. -/
inductive Refusal where
  /-- Raised by an arm of `exec` whose instruction has no meaning yet; no arm raises it. Safe. -/
  | notModelled (mnemonic : String)
  /-- Raised by `step` when the configuration is not well formed: "a model refuses any other configuration"
  (00_scope.md R8). Safe. -/
  | illFormedConfig
  deriving DecidableEq, Repr

/-- The reset state of a block of configuration `cfg` (10_state.md R36; 70_reset_and_hazards.md R271). The inputs
and outputs, which the spec gives no reset value, are idle: DESIGN CHOICE, notes/assumptions/20.md. -/
def State.resetWith (cfg : Config) : State :=
  { cfg := cfg
    ledCount := 0#16
    totalPkts := 0#8
    bright := cfg.brightnessInit
    law := cfg.lawInit
    fb := []
    upload := none
    rsp := none
    rst := false
    cmd := []
    rspReady := true
    txRoom := none
    txr := []
    rspTaken := []
    tx := [] }

/-- The machine right after reset, in the default configuration. -/
def State.reset : State := State.resetWith Config.default

end Sys2Proof.Machine
end

