-- ==== Sys2Proof/Machine/Operands.lean ====
section
/-! DEFINITION. Operand assembly (30_encoding.md R86), the 24-bit packings (00_scope.md R12, R14, R15; 20_memory.md
R52(d)) and the control register numbers (10_state.md R24). -/

namespace Sys2Proof.Machine

/-- `pack(hue, sat, val)`, hue in bits 23 to 16 (R14). -/
def packHsv (c : Hsv) : BitVec 24 := c.hue ++ c.sat ++ c.val

/-- `pack(red, green, blue) = 0xRRGGBB` (R15). -/
def packRgb (c : Rgb) : BitVec 24 := c.red ++ c.green ++ c.blue

/-- The hue step of `RAINBOW`: `delta = b[7:0]` (R86). -/
def hueStep (b : Half) : Byte := b.extractLsb' 0 8

/-- The control registers of 10_state.md R24. -/
inductive CtlReg where
  | ledCount
  | totalPkts
  | bright
  | law
  | maxBytes
  | ledMax
  deriving DecidableEq, Repr

/-- The register a number names; 6 to 65535 are reserved (R24). -/
def ctlRegOf (r : Half) : Option CtlReg :=
  match r.toNat with
  | 0 => some .ledCount
  | 1 => some .totalPkts
  | 2 => some .bright
  | 3 => some .law
  | 4 => some .maxBytes
  | 5 => some .ledMax
  | _ => none

/-- `CTL.<name>`, zero-extended to the 24 data bits of a response (42_framebuffer.md R169). -/
def readCtl (s : State) : CtlReg → BitVec 24
  | .ledCount => s.ledCount.setWidth 24
  | .totalPkts => s.totalPkts.setWidth 24
  | .bright => s.bright.setWidth 24
  | .law => s.law.setWidth 24
  | .maxBytes => BitVec.ofNat 24 s.cfg.maxBytes
  | .ledMax => BitVec.ofNat 24 s.cfg.ledMax

/-- One past the last entry `FILLR` writes: `min(start + len, LEDCOUNT)`, the sum not reduced mod `2^16`
(42_framebuffer.md R167). -/
def rangeEnd (start len count : Half) : Nat := min (start.toNat + len.toNat) count.toNat

end Sys2Proof.Machine
end

