-- ==== Sys2Proof/Machine/Ops.lean ====
section
/-! DEFINITION. The named operations over memory, control registers and the response channel, and the one shared
operation by which a command reports an error (60_exceptions.md R240). There is no return from an error and no
handler (R248, R249): after an error response the next command runs as usual. -/

namespace Sys2Proof.Machine

/-- What a meaning answers. -/
abbrev Result := Host.Outcome State Fault Refusal

/-! ### Memory -/

/-- The contents of an address, if it is listed. -/
def Memory.lookup {α : Type} : Memory α → Nat → Option α
  | [], _ => none
  | (k, v) :: m, a => if k = a then some v else Memory.lookup m a

/-- The cells `lo` to `hi - 1`, cell `i` holding `f i`. -/
def Memory.span {α : Type} (lo hi : Nat) (f : Nat → α) : Memory α :=
  (List.range' lo (hi - lo)).map (fun i => (i, f i))

/-- Write `f i` to every address `i` with `lo <= i < hi`; nothing when `hi <= lo`. -/
def Memory.setRange {α : Type} (m : Memory α) (lo hi : Nat) (f : Nat → α) : Memory α :=
  m.filter (fun c => c.1 < lo) ++ Memory.span lo hi f ++ m.filter (fun c => max lo hi ≤ c.1)

/-- Forget every address from `n` on. -/
def Memory.keepBelow {α : Type} (m : Memory α) (n : Nat) : Memory α := m.filter (fun c => c.1 < n)

/-- The canonical form: addresses strictly rising. In the FrameBuffer an address that is not listed has no value,
so no listed entry can equal it (notes/assumptions/3.md). -/
abbrev Memory.wf {α : Type} (m : Memory α) : Prop := m.Pairwise (fun x y => x.1 < y.1)

/-! ### The packet space (20_memory.md R50(b), R56): an offset that is not listed holds 0 (43_packetizer.md R211) -/

/-- `PKT[k]`. -/
def pktRead (p : List Host.Cell) (k : Nat) : Byte := (Memory.lookup p k).getD 0#8

/-- `PKT[k] = v`, in canonical form: a zero byte is not listed. -/
def pktWrite (p : List Host.Cell) (k : Nat) (v : Byte) : List Host.Cell :=
  if v = 0#8 then p.filter (fun c => c.1 ≠ k) else Memory.setRange p k (k + 1) (fun _ => v)

/-- The canonical form of the packet space: offsets strictly rising, no listed byte zero. -/
abbrev pktWf (p : List Host.Cell) : Prop := Memory.wf p ∧ ∀ c ∈ p, c.2 ≠ 0#8

/-! ### The FrameBuffer (10_state.md R32; 00_scope.md R12) -/

/-- `FB[i]`, if entry `i` holds a value. -/
def readEntry (s : State) (i : Nat) : Option Hsv := s.fb.lookup i

/-- `for i in lo .. hi-1: FB[i] <- f i`. -/
def writeEntries (lo hi : Nat) (f : Nat → Hsv) (s : State) : State := { s with fb := s.fb.setRange lo hi f }

/-! ### Control registers (10_state.md R24 to R28) -/

/-- `LEDCOUNT <- n` and, in the same step, `TOTALPKTS <- total_packets(n)` (R25, R26). Entries that become
invisible are no longer state and are dropped (R32). -/
def setCount (n : Half) (s : State) : State :=
  { s with
    ledCount := n
    totalPkts := BitVec.ofNat 8 (s.cfg.totalPackets n.toNat)
    fb := s.fb.keepBelow n.toNat }

/-- `BRIGHT <- v` (R27). -/
def setBright (v : Byte) (s : State) : State := { s with bright := v }

/-- `LAW <- v` (R28). -/
def setLaw (v : BitVec 1) (s : State) : State := { s with law := v }

/-! ### Responding and reporting an error -/

/-- `respond(status, data)`: one response word on the response channel (00_scope.md R12; 30_encoding.md R87). -/
def respond (st : Status) (data : BitVec 24) (s : State) : State := { s with rsp := some (responseWord st data) }

/-- `raise X` is `respond(X, 0)` with no state change (60_exceptions.md R240). Nothing is saved, no mode changes
and there is nothing to return from (R248, R249). -/
def raise (st : Status) (s : State) : State := respond st 0#24 s

end Sys2Proof.Machine
end

