-- ==== Sys2Proof/Machine/Channels.lean ====
section
/-! DEFINITION. The host channels (30_encoding.md R80 to R83), the fetch of the next command word, the reset line
(70_reset_and_hazards.md R270 to R272), and what the outside world can do to the inputs. -/

namespace Sys2Proof.Machine

/-! ### What the block does with its lines -/

/-- Hand the pending response over when the host is ready; hold it stable otherwise (R81, R83). -/
def deliver (s : State) : State :=
  match s.rsp with
  | none => s
  | some r => if s.rspReady then { s with rsp := none, rspTaken := s.rspTaken ++ [r] } else s

/-- What the block does in a step in which the reset line is low, after the response channel has been served. -/
inductive Activity where
  /-- the response is still pending: no command is accepted (R82, R83) -/
  | hold
  /-- an `UPLOAD` is running: it goes on, and no command is accepted (10_state.md R34; 43_packetizer.md R223) -/
  | resume (u : Upload)
  /-- the host presents no command: the block idles (R83) -/
  | idle
  /-- the block accepts the oldest command word; the state is what remains (R80, R82) -/
  | accept (w : CmdWord) (s : State)

/-- Which of these it is. -/
def activity (s : State) : Activity :=
  match s.rsp with
  | some _ => .hold
  | none =>
    match s.upload with
    | some u => .resume u
    | none =>
      match s.cmd with
      | [] => .idle
      | w :: rest => .accept w { s with cmd := rest }

/-- The status an illegal word answers (R90, R91). -/
def illegalStatus : DecodeError → Status
  | .badOpcode => .errOpcode
  | .badField => .errField

/-- Reset (R270 to R272): the architectural state takes its reset values, the command in progress is abandoned without
a response, and a packet partly handed over stays incomplete. Results of sends that are at hand go with the `UPLOAD`
they were for: none is ever pending outside an `UPLOAD` (60_exceptions.md R246; 43_packetizer.md R222; DEDUCED,
notes/assumptions/22.md; safe). The other lines the outside world drives, and what it has already taken, are not the
block's to change. -/
def resetBlock (s : State) : State :=
  { s with
    ledCount := 0#16
    totalPkts := 0#8
    bright := s.cfg.brightnessInit
    law := s.cfg.lawInit
    fb := []
    upload := none
    rsp := none
    txr := [] }

/-! ### What the outside world can do between two steps (notes/assumptions/6.md, 8.md, 9.md) -/

/-- The host presents one more command word (R80). -/
def hostPresents (w : CmdWord) (s : State) : State := { s with cmd := s.cmd ++ [w] }

/-- The host drives `rsp_ready` (R81). -/
def hostReady (b : Bool) (s : State) : State := { s with rspReady := b }

/-- Somebody drives `rst` (R270). -/
def driveReset (b : Bool) (s : State) : State := { s with rst := b }

/-- The Transport says how many more bytes it takes (43_packetizer.md R221). -/
def transportTakes (room : Option Nat) (s : State) : State := { s with txRoom := room }

/-- The block has handed over a whole packet and waits for its result (43_packetizer.md R222). -/
def awaitingResult (s : State) : Bool :=
  match s.upload with
  | some u => u.pos = s.cfg.maxBytes ∧ s.txr = []
  | none => false

/-- One cycle with `txr_valid` high: the result of the send if the block waits for one, ignored at any other time
(43_packetizer.md R222). -/
def resultPulse (r : SendResult) (s : State) : State :=
  if awaitingResult s then { s with txr := [r] } else s

end Sys2Proof.Machine
end

