-- ==== Sys2Proof/Machine/Control.lean ====
section
/-! DEFINITION. `NOP` and the control register commands (42_framebuffer.md R161, R169, R170). -/

namespace Sys2Proof.Machine

/-- `NOP` (R161). -/
def execNop (s : State) : Result := .next (respond .ok 0#24 s)

/-- `RDCTL r` (R169). -/
def execRdctl (reg : Half) (s : State) : Result :=
  match ctlRegOf reg with
  | some r => .next (respond .ok (readCtl s r) s)
  | none => .next (raise .errReg s)

/-- `WRCTL r, x` (R170): the register test comes before the value test; four registers are read-only. -/
def execWrctl (reg value : Half) (s : State) : Result :=
  match ctlRegOf reg with
  | some .bright =>
    if 255 < value.toNat then .next (raise .errField s)
    else .next (respond .ok 0#24 (setBright (value.extractLsb' 0 8) s))
  | some .law =>
    if 1 < value.toNat then .next (raise .errField s)
    else .next (respond .ok 0#24 (setLaw (value.extractLsb' 0 1) s))
  | some .ledCount => .next (raise .errReg s)
  | some .totalPkts => .next (raise .errReg s)
  | some .maxBytes => .next (raise .errReg s)
  | some .ledMax => .next (raise .errReg s)
  | none => .next (raise .errReg s)

end Sys2Proof.Machine
end

