-- ==== Sys2Proof/Machine/Arith.lean ====
section
/-! DEFINITION. The 8-bit arithmetic primitives (00_scope.md R11; 40_hsv2rgb_rainbow.md R110, R111;
43_packetizer.md R201). Operands are taken as numbers, the result is computed exactly and narrowed at the end. -/

namespace Sys2Proof.Machine

/-- `add8(a, b) = (a + b) mod 256` (R11). -/
def add8 (a b : Byte) : Byte := BitVec.ofNat 8 (a.toNat + b.toNat)

/-- `sub8(a, b) = (a - b) mod 256` (R11). -/
def sub8 (a b : Byte) : Byte := BitVec.ofNat 8 (256 + a.toNat - b.toNat)

/-- `scale8(i, s) = (i * s) >> 8` (R110). -/
def scale8 (i s : Byte) : Byte := BitVec.ofNat 8 ((i.toNat * s.toNat) >>> 8)

/-- `scale8_video(i, s) = ((i * s) >> 8) + (1 if i != 0 and s != 0 else 0)` (R111). -/
def scale8Video (i s : Byte) : Byte :=
  BitVec.ofNat 8 (((i.toNat * s.toNat) >>> 8) + (if i ≠ 0#8 ∧ s ≠ 0#8 then 1 else 0))

/-- `scale_bri(c, B) = floor((c * B) / 255)` (R201). -/
def scaleBri (c bri : Byte) : Byte := BitVec.ofNat 8 ((c.toNat * bri.toNat) / 255)

end Sys2Proof.Machine
end

