-- ==== Sys2Proof/Machine/FrameBuffer.lean ====
section
/-! DEFINITION. The FrameBuffer commands (42_framebuffer.md R160 to R168). -/

namespace Sys2Proof.Machine

/-- `SETUP n` (R162). -/
def execSetup (count : Half) (s : State) : Result :=
  if s.cfg.ledMax < count.toNat then .next (raise .errCount s)
  else
    let s' := writeEntries 0 count.toNat (fun _ => s.cfg.defaultHsv) (setCount count s)
    .next (respond .ok (readCtl s' .totalPkts) s')

/-- `RESIZE n` (R163): entries `N` to `n - 1` are new, entries below both counts keep their values. -/
def execResize (count : Half) (s : State) : Result :=
  if s.cfg.ledMax < count.toNat then .next (raise .errCount s)
  else
    let s' := writeEntries s.ledCount.toNat count.toNat (fun _ => s.cfg.resizeFill) (setCount count s)
    .next (respond .ok (readCtl s' .totalPkts) s')

/-- `SETLED i, h, s, v` (R164): out of range is a silent no-op. -/
def execSetled (index : Half) (col : Hsv) (s : State) : Result :=
  if index.toNat < s.ledCount.toNat then
    .next (respond .ok 0#24 (writeEntries index.toNat (index.toNat + 1) (fun _ => col) s))
  else .next (respond .ok 0#24 s)

/-- `GETLED i` (R165): out of range answers `ERR_INDEX`. -/
def execGetled (index : Half) (s : State) : Result :=
  if index.toNat < s.ledCount.toNat then
    match readEntry s index.toNat with
    | some col => .next (respond .ok (packHsv col) s)
    | none => .fault .unwrittenEntry
  else .next (raise .errIndex s)

/-- `FILL h, s, v` (R166). -/
def execFill (col : Hsv) (s : State) : Result :=
  .next (respond .ok 0#24 (writeEntries 0 s.ledCount.toNat (fun _ => col) s))

/-- `FILLR start, len, h, s, v` (R167). -/
def execFillr (start len : Half) (col : Hsv) (s : State) : Result :=
  .next (respond .ok 0#24 (writeEntries start.toNat (rangeEnd start len s.ledCount) (fun _ => col) s))

/-- The colour `RAINBOW` stores in entry `i`: hue `(c0 + d * i) mod 256` (R168). -/
def rainbowEntry (d : Byte) (col : Hsv) (i : Nat) : Hsv :=
  { col with hue := BitVec.ofNat 8 (col.hue.toNat + d.toNat * i) }

/-- `RAINBOW d, h, s, v` (R168). -/
def execRainbow (b : Half) (col : Hsv) (s : State) : Result :=
  .next (respond .ok 0#24 (writeEntries 0 s.ledCount.toNat (rainbowEntry (hueStep b) col) s))

end Sys2Proof.Machine
end

