-- ==== Sys2Proof/Machine/ColorModel.lean ====
section
/-! DEFINITION. The two colour laws and the commands that expose them (40_hsv2rgb_rainbow.md R113 to R121;
41_hsv2rgb_spectrum.md R140 to R147). -/

namespace Sys2Proof.Machine

/-! ### The rainbow law -/

/-- `sector = hue >> 5` (R114). -/
def sectorOf (hue : Byte) : Fin 8 := ⟨hue.toNat / 32, by have := hue.isLt; omega⟩

/-- `offset8 = (hue & 31) << 3` (R114). -/
def offset8 (hue : Byte) : Byte := (hue &&& 31#8) <<< 3

/-- `third = scale8(offset8, ONE_THIRD)` and `twoThirds = scale8(offset8, TWO_THIRDS)` (R114). -/
def rampValue (cfg : Config) (hue : Byte) : Ramp → Byte
  | .third => scale8 (offset8 hue) cfg.oneThird
  | .twoThirds => scale8 (offset8 hue) cfg.twoThirds

/-- One channel of the sector stage (R115). -/
def termValue (cfg : Config) (hue : Byte) : ChannelTerm → Byte
  | .const c => c
  | .plus c x => add8 c (rampValue cfg hue x)
  | .minus c x => sub8 c (rampValue cfg hue x)

/-- The sector stage: `(r0, g0, b0)` from the hue alone (R114, R115). -/
def sectorStage (cfg : Config) (hue : Byte) : Rgb :=
  let row := cfg.rainbowTable[sectorOf hue]
  { red := termValue cfg hue row.r0, green := termValue cfg hue row.g0, blue := termValue cfg hue row.b0 }

/-- `desat = scale8_video(255 - sat, 255 - sat)` (R116). -/
def desat (sat : Byte) : Byte := scale8Video (sub8 255#8 sat) (sub8 255#8 sat)

/-- "Each nonzero channel is rescaled via `scale8` plus 1" (R116, R117). -/
def rescale (c x : Byte) : Byte := if c ≠ 0#8 then add8 (scale8 c x) 1#8 else 0#8

/-- The saturation stage on one channel (R116). -/
def saturate (sat c0 : Byte) : Byte :=
  if sat = 255#8 then c0
  else if sat = 0#8 then 255#8
  else add8 (rescale c0 (sub8 255#8 (desat sat))) (desat sat)

/-- The value stage on one channel (R117; branch structure PRESUMED by the spec from general knowledge, GK2,
notes/assumptions/12.md). -/
def dim (val c1 : Byte) : Byte :=
  if val = 255#8 then c1
  else if scale8Video val val = 0#8 then 0#8
  else rescale c1 (scale8Video val val)

/-- `hsv2rgb_rainbow` (R113, R119): the sector stage, then the saturation stage, then the value stage. -/
def hsv2rgbRainbow (cfg : Config) (c : Hsv) : Rgb :=
  let base := sectorStage cfg c.hue
  { red := dim c.val (saturate c.sat base.red)
    green := dim c.val (saturate c.sat base.green)
    blue := dim c.val (saturate c.sat base.blue) }

/-! ### The spectrum law (formulas of R142 to R144 PRESUMED by the spec from general knowledge, GK4,
notes/assumptions/13.md) -/

/-- `brightnessFloor = (val * (255 - sat)) >> 8` (R141). -/
def brightnessFloor (c : Hsv) : Byte := scale8 c.val (sub8 255#8 c.sat)

/-- `colourAmplitude = val - brightnessFloor` (R141). -/
def colourAmplitude (c : Hsv) : Byte := sub8 c.val (brightnessFloor c)

/-- A ramp weighted by the amplitude and lifted by the floor: `((ramp * amp) >> 6) + floor` (R143). -/
def liftRamp (ramp : Nat) (c : Hsv) : Byte :=
  add8 (BitVec.ofNat 8 ((ramp * (colourAmplitude c).toNat) >>> 6)) (brightnessFloor c)

/-- The hue the sections are cut from: the raw byte, or under the `prescale` choice of D11 `scale8(hue, 191)`
(R145; notes/assumptions/14.md). -/
def spectrumHue (sec3 : SpectrumSection3) (hue : Byte) : Byte :=
  match sec3 with
  | .asSection2 => hue
  | .prescale => scale8 hue 191#8

/-- `hsv2rgb_spectrum` (R146). Sections 2 and 3 share the last arm (R145). -/
def hsv2rgbSpectrum (sec3 : SpectrumSection3) (c : Hsv) : Rgb :=
  let hue := spectrumHue sec3 c.hue
  let off := hue.toNat % 64
  let up := liftRamp off c
  let down := liftRamp (63 - off) c
  let floor := brightnessFloor c
  match hue.toNat / 64 with
  | 0 => { red := down, green := up, blue := floor }
  | 1 => { red := floor, green := down, blue := up }
  | _ => { red := up, green := floor, blue := down }

/-! ### The commands -/

/-- `CVTRB h, s, v` (R121). -/
def execCvtrb (col : Hsv) (s : State) : Result :=
  .next (respond .ok (packRgb (hsv2rgbRainbow s.cfg col)) s)

/-- `CVTSP h, s, v` (R147). -/
def execCvtsp (col : Hsv) (s : State) : Result :=
  .next (respond .ok (packRgb (hsv2rgbSpectrum s.cfg.section3 col)) s)

end Sys2Proof.Machine
end

