-- ==== Sys2Proof/Machine/Packetizer.lean ====
section
/-! DEFINITION. The Packetizer and `UPLOAD` (43_packetizer.md R200 to R224). One `UPLOAD` runs within one step as
far as the Transport lets it; where the Transport stalls or has not answered, the block waits inside the command
with its transient state in `State.upload` (R223), and a later step goes on from there. -/

namespace Sys2Proof.Machine

/-! ### The pixel path -/

/-- `convert(c)`: the law that `LAW` selects (R202). -/
def convert (s : State) (c : Hsv) : Rgb :=
  if s.law = 0#1 then hsv2rgbRainbow s.cfg c else hsv2rgbSpectrum s.cfg.section3 c

/-- The brightness pass on one colour (R201, R203). -/
def applyBright (bri : Byte) (c : Rgb) : Rgb :=
  { red := scaleBri c.red bri, green := scaleBri c.green bri, blue := scaleBri c.blue bri }

/-- `pixel(i)`: conversion first, brightness second (R203); nothing when entry `i` holds no value. -/
def pixel (s : State) (i : Nat) : Option Rgb :=
  (readEntry s i).map (fun c => applyBright s.bright (convert s c))

/-! ### Building one packet -/

/-- Packet start (R211): `n = 0`, every byte zero, then the two start markers. -/
def startPacket (cfg : Config) (seq : Byte) (cur : Half) (failed : Byte) : Upload :=
  { seq := seq
    cur := cur
    n := 0#16
    pkt := pktWrite (pktWrite [] 0 cfg.startMarker) 1 cfg.typeMarker
    failed := failed
    pos := 0 }

/-- One turn of the fill loop: one triplet, red then green then blue (R212; 20_memory.md R52(b)). -/
def putTriplet (p : Rgb) (u : Upload) : Upload :=
  let at6 := 6 + u.n.toNat
  { u with
    pkt := pktWrite (pktWrite (pktWrite u.pkt at6 p.red) (at6 + 1) p.green) (at6 + 2) p.blue
    n := u.n + 3#16
    cur := u.cur + 1#16 }

/-- The fill loop (R212): `while n <= FILL_LIMIT and cur < LEDCOUNT`. The first argument bounds the turns; the
caller gives `LEDCOUNT - cur`, after which the second test is false. Nothing when an entry holds no value. -/
def fillLoop (s : State) : Nat → Upload → Option Upload
  | 0, u => some u
  | k + 1, u =>
    if u.n.toNat ≤ s.cfg.fillLimit ∧ u.cur.toNat < s.ledCount.toNat then
      match pixel s u.cur.toNat with
      | some p => fillLoop s k (putTriplet p u)
      | none => none
    else some u

/-- Packet finish (R214): size big-endian, sequence number, total, end marker. -/
def finishPacket (s : State) (u : Upload) : Upload :=
  let p2 := pktWrite u.pkt 2 (u.n.extractLsb' 8 8)
  let p3 := pktWrite p2 3 (u.n.extractLsb' 0 8)
  let p4 := pktWrite p3 4 u.seq
  let p5 := pktWrite p4 5 s.totalPkts
  { u with pkt := pktWrite p5 (s.cfg.maxBytes - 1) s.cfg.endMarker }

/-- Packet `seq`, whole, from the entries at `cur` on (R211 to R214). -/
def buildPacket (s : State) (seq : Byte) (cur : Half) (failed : Byte) : Option Upload :=
  (fillLoop s (s.ledCount.toNat - cur.toNat) (startPacket s.cfg seq cur failed)).map (finishPacket s)

/-! ### Sending one packet (R220 to R224) -/

/-- The beats of a packet: byte `i` of `PKT` with its side bands (R218, R221). -/
def packetBeats (s : State) (u : Upload) : List Beat :=
  (List.range s.cfg.maxBytes).map (fun i =>
    { data := pktRead u.pkt i
      last := i + 1 = s.cfg.maxBytes
      sof := u.seq = 1#8
      eof := u.seq = s.totalPkts })

/-- How many of `want` bytes the Transport takes now (R221). -/
def takeable (room : Option Nat) (want : Nat) : Nat :=
  match room with
  | none => want
  | some r => min r want

/-- How many bytes of the packet the Transport takes now. -/
def beatsNow (s : State) (u : Upload) : Nat := takeable s.txRoom (s.cfg.maxBytes - u.pos)

/-- The state after the Transport has taken what it takes now, in offset order (R64, R221). -/
def handOver (s : State) (u : Upload) : State :=
  { s with
    tx := s.tx ++ ((packetBeats s u).drop u.pos).take (beatsNow s u)
    txRoom := s.txRoom.map (fun r => r - beatsNow s u) }

/-- The transient state after the Transport has taken what it takes now. -/
def advance (s : State) (u : Upload) : Upload := { u with pos := u.pos + beatsNow s u }

/-- A `fail` changes nothing but the count (R224). -/
def countFailure (r : SendResult) (failed : Byte) : Byte :=
  match r with
  | .ok => failed
  | .fail => failed + 1#8

/-- How the attempt to send the packet under way ends in this step. -/
inductive SendOutcome where
  /-- The Transport has stalled or has not answered: the block waits inside `UPLOAD` (R223). -/
  | waiting (s : State)
  /-- The send has returned: the state, the cursor and the new count of failures. -/
  | returned (s : State) (failed : Byte)

/-- `result = send(PKT)` (R220 to R224): hand over the bytes, then take one answer. -/
def sendPacket (s : State) (u : Upload) : SendOutcome :=
  let s1 := handOver s u
  let u1 := advance s u
  if u1.pos < s.cfg.maxBytes then .waiting { s1 with upload := some u1 }
  else
    match s1.txr with
    | [] => .waiting { s1 with upload := some u1 }
    | r :: rest => .returned { s1 with txr := rest } (countFailure r u.failed)

/-! ### The frame loop -/

/-- End of frame (R216): `respond(OK, {0x00, sent, failed})`; the transient state is dead. -/
def endFrame (failed : Byte) (s : State) : State :=
  respond .ok (0x00#8 ++ s.totalPkts ++ failed) { s with upload := none }

/-- The outer loop of R210 from the packet `u` on, with `rest` packets after it. -/
def frameLoop : Nat → State → Upload → Result
  | 0, s, u =>
    match sendPacket s u with
    | .waiting s1 => .next s1
    | .returned s1 failed => .next (endFrame failed s1)
  | k + 1, s, u =>
    match sendPacket s u with
    | .waiting s1 => .next s1
    | .returned s1 failed =>
      match buildPacket s1 (u.seq + 1#8) u.cur failed with
      | some u1 => frameLoop k s1 u1
      | none => .fault .unwrittenEntry

/-- A later step of a running `UPLOAD`: send what is left of the packet under way and go on (R223). -/
def resumeUpload (u : Upload) (s : State) : Result := frameLoop (s.totalPkts.toNat - u.seq.toNat) s u

/-- `UPLOAD` (R210, R217): `seq` from 1 to `TOTALPKTS`, `cur = 0`, `failed = 0`. -/
def execUpload (s : State) : Result :=
  match s.totalPkts.toNat with
  | 0 => .next (endFrame 0#8 s)
  | k + 1 =>
    match buildPacket s 1#8 0#16 0#8 with
    | some u => frameLoop k s u
    | none => .fault .unwrittenEntry

end Sys2Proof.Machine
end

