-- ==== Sys2Proof/Machine/Dispatch.lean ====
section
/-! DEFINITION. The meaning of every command, one arm per constructor of Instr (30_encoding.md R89). -/

namespace Sys2Proof.Machine

def exec (i : Instr) (s : State) : Host.Outcome State Fault Refusal :=
  match i with
  | .nop => Sys2Proof.Machine.execNop s
  | .cvtrb col => Sys2Proof.Machine.execCvtrb col s
  | .cvtsp col => Sys2Proof.Machine.execCvtsp col s
  | .setup count => Sys2Proof.Machine.execSetup count s
  | .resize count => Sys2Proof.Machine.execResize count s
  | .setled index col => Sys2Proof.Machine.execSetled index col s
  | .getled index => Sys2Proof.Machine.execGetled index s
  | .fill col => Sys2Proof.Machine.execFill col s
  | .fillr start len col => Sys2Proof.Machine.execFillr start len col s
  | .rainbow b col => Sys2Proof.Machine.execRainbow b col s
  | .rdctl reg => Sys2Proof.Machine.execRdctl reg s
  | .wrctl reg value => Sys2Proof.Machine.execWrctl reg value s
  | .upload => Sys2Proof.Machine.execUpload s

end Sys2Proof.Machine
end

