-- ==== Sys2Proof/Machine/Run.lean ====
section
/-! DEFINITION. What the block does in a step with the reset line low (30_encoding.md R82, R90 to R92). -/

namespace Sys2Proof.Machine

/-- Run one accepted command word: an illegal word answers its error with no state change (R90 to R92). -/
def runWord (w : CmdWord) (s : State) : Host.Outcome State Fault Refusal :=
  match decode w with
  | .ok i => exec i s
  | .error e => .next (raise (illegalStatus e) s)

/-- What a step does once the response channel has been served. -/
def act (s : State) : Host.Outcome State Fault Refusal :=
  match activity s with
  | .hold => .next s
  | .resume u => resumeUpload u s
  | .idle => .next s
  | .accept w s' => runWord w s'

end Sys2Proof.Machine
end

