-- ==== Sys2Proof/Machine/Step.lean ====
section
/-! DEFINITION. One step of the block (00_scope.md R5, R8). -/

namespace Sys2Proof.Machine

/-- One step. A configuration that is not well formed is refused (R8). With the reset line high the step is the
reset (R270). Otherwise the response channel is served, and then the block waits, goes on with a running
`UPLOAD`, idles, or accepts and runs one command word. -/
def step (s : State) : Host.Outcome State Fault Refusal :=
  if s.cfg.WellFormed then
    if s.rst then .next (resetBlock s) else act (deliver s)
  else .refused .illFormedConfig

/-- `s` with the command word of bits `w` first on the command channel and nothing in its way: reset line low, no
`UPLOAD` running, no response pending. The very next step accepts and runs it (notes/assumptions/16.md). -/
def State.withFetchWord (s : State) (nbits w : Nat) : State :=
  { s with
    rst := false
    upload := none
    rsp := none
    cmd := BitVec.ofNat 64 (w % 2 ^ nbits) :: s.cmd }

end Sys2Proof.Machine
end

