-- ==== Sys2Proof/Safety.lean ====
section
/-! DEFINITION. What counts as a good state, and the terms the statements use: the closed form of a frame
(43_packetizer.md R215), the closed forms of the two colour laws over plain numbers (40_hsv2rgb_rainbow.md R119;
41_hsv2rgb_spectrum.md R146), the order in which errors are reported (60_exceptions.md R247). None of these is used
by the machine. -/

namespace Sys2Proof.Machine

/-! ### Frames in closed form (43_packetizer.md R215) -/

/-- `m_k = min(P, N - (k - 1) * P)`: how many triplets packet `k` carries. -/
def tripletCount (c : Config) (ledCount k : Nat) : Nat := min c.ledsPerPacket (ledCount - (k - 1) * c.ledsPerPacket)

/-- The colour sent for LED `i`; black where the entry holds no value (no frame of a good state has one). -/
def pixelOrBlack (s : State) (i : Nat) : Rgb := (pixel s i).getD { red := 0#8, green := 0#8, blue := 0#8 }

/-- Channel 0 red, 1 green, 2 blue. -/
def channel (c : Rgb) (ch : Nat) : Byte := if ch = 0 then c.red else if ch = 1 then c.green else c.blue

/-- Byte `off` of packet `k` of the frame of `s` (R215; 20_memory.md R56, R57). -/
def packetByte (s : State) (k off : Nat) : Byte :=
  let m := tripletCount s.cfg s.ledCount.toNat k
  if off = 0 then s.cfg.startMarker
  else if off = 1 then s.cfg.typeMarker
  else if off = 2 then BitVec.ofNat 8 (3 * m / 256)
  else if off = 3 then BitVec.ofNat 8 (3 * m)
  else if off = 4 then BitVec.ofNat 8 k
  else if off = 5 then s.totalPkts
  else if off + 1 = s.cfg.maxBytes then s.cfg.endMarker
  else if off < 6 + 3 * m then
    channel (pixelOrBlack s ((k - 1) * s.cfg.ledsPerPacket + (off - 6) / 3)) ((off - 6) % 3)
  else 0x00#8

/-- Packet `k` of the frame of `s` as the Transport sees it (R218, R221). -/
def packetOf (s : State) (k : Nat) : List Beat :=
  (List.range s.cfg.maxBytes).map (fun off =>
    { data := packetByte s k off
      last := off + 1 = s.cfg.maxBytes
      sof := k = 1
      eof := k = s.totalPkts.toNat })

/-- The whole frame: packets 1 to `TOTALPKTS` in order (R210, R218; 20_memory.md R64). -/
def frameOf (s : State) : List Beat := (List.range' 1 s.totalPkts.toNat).flatMap (packetOf s)

/-- What is left of the frame once the Transport has taken `pos` bytes of packet `seq` (R210, R221). -/
def restOfFrame (s : State) (seq pos : Nat) : List Beat :=
  (packetOf s seq).drop pos ++ (List.range' (seq + 1) (s.totalPkts.toNat - seq)).flatMap (packetOf s)

/-- How many of a list of answers are `fail` (R216). -/
def failures (answers : List SendResult) : Nat := answers.count .fail

/-- Every LED fits into the frame (43_packetizer.md R219; 70_reset_and_hazards.md R276). -/
def carriesAll (c : Config) (ledCount totalPkts : Nat) : Prop := ledCount ≤ totalPkts * c.ledsPerPacket

/-! ### Good states -/

/-- Every visible entry holds a value and no other does (10_state.md R32, R37(c)). -/
def FbComplete (s : State) : Prop := ∀ i, (readEntry s i).isSome = true ↔ i < s.ledCount.toNat

/-- The transient state of a running `UPLOAD` is that of the packet `seq` of the frame, whole
(10_state.md R22; 43_packetizer.md R215). -/
structure UploadOk (s : State) (u : Upload) : Prop where
  seqLow : 1 ≤ u.seq.toNat
  seqHigh : u.seq.toNat ≤ s.totalPkts.toNat
  curOk : u.cur.toNat = min s.ledCount.toNat (u.seq.toNat * s.cfg.ledsPerPacket)
  nOk : u.n.toNat = 3 * tripletCount s.cfg s.ledCount.toNat u.seq.toNat
  failedOk : u.failed.toNat < u.seq.toNat
  posOk : u.pos ≤ s.cfg.maxBytes
  pktOk : pktWf u.pkt
  pktBound : ∀ c ∈ u.pkt, c.1 < s.cfg.maxBytes
  bytesOk : ∀ off, off < s.cfg.maxBytes → pktRead u.pkt off = packetByte s u.seq.toNat off

/-- A good state: the invariants of 10_state.md R37, the canonical form of the memory, and the transient state of a
running `UPLOAD`, during which no response is pending (30_encoding.md R82). `LAW` is 0 or 1 by its type. -/
structure Good (s : State) : Prop where
  cfgOk : s.cfg.WellFormed
  countOk : s.ledCount.toNat ≤ s.cfg.ledMax
  totalOk : s.totalPkts.toNat = s.cfg.totalPackets s.ledCount.toNat
  fbOk : Memory.wf s.fb
  fbComplete : FbComplete s
  uploadOk : ∀ u, s.upload = some u → UploadOk s u
  quiet : s.upload.isSome = true → s.rsp = none

/-- A result of a send is at hand only while an `UPLOAD` has handed over a whole packet and waits for it
(43_packetizer.md R222; 60_exceptions.md R246). -/
def ResultsAwaited (s : State) : Prop :=
  s.txr = [] ∨ ∃ u r, s.upload = some u ∧ u.pos = s.cfg.maxBytes ∧ s.txr = [r]

/-! ### Accepting a command word (30_encoding.md R80 to R82) -/

/-- The next step accepts the word `w`: nothing is in its way. -/
structure Accepting (s : State) (w : CmdWord) (rest : List CmdWord) : Prop where
  cfgOk : s.cfg.WellFormed
  resetLow : s.rst = false
  rspFree : s.rsp = none ∨ s.rspReady = true
  noUpload : s.upload = none
  cmdIs : s.cmd = w :: rest

/-- The state in which an accepted word runs: a pending response has been taken by the host and the word is off the
command channel. -/
def accepted (s : State) (rest : List CmdWord) : State :=
  { s with cmd := rest, rsp := none, rspTaken := s.rspTaken ++ s.rsp.toList }

/-- How many command words the host has presented that still wait, are in progress, or have been answered: a word
that was presented is in exactly one of these places (30_encoding.md R82). -/
def wordsAccounted (s : State) : Nat :=
  s.cmd.length + s.upload.toList.length + s.rsp.toList.length + s.rspTaken.length

/-! ### The colour laws over plain numbers -/

/-- `scale8_video` over numbers (40_hsv2rgb_rainbow.md R111). -/
def videoNat (i s : Nat) : Nat := i * s / 256 + (if i = 0 ∨ s = 0 then 0 else 1)

/-- One channel of R119: the closed form of the saturation and value stages. -/
def rainbowNat (c0 sat val : Nat) : Nat :=
  let d := videoNat (255 - sat) (255 - sat)
  let c1 := if sat = 255 then c0 else if sat = 0 then 255 else videoNat c0 (255 - d) + d
  videoNat c1 (videoNat val val)

/-- The sector table of R115 over numbers, with `third` and `twoThirds` of R114: no sum or difference wraps. -/
def sectorNat (hue : Nat) : Nat × Nat × Nat :=
  let third := (hue % 32) * 8 * 85 / 256
  let twoThirds := (hue % 32) * 8 * 170 / 256
  match hue / 32 with
  | 0 => (255 - third, third, 0)
  | 1 => (171, 85 + third, 0)
  | 2 => (171 - twoThirds, 170 + third, 0)
  | 3 => (0, 255 - third, third)
  | 4 => (0, 171 - twoThirds, 85 + twoThirds)
  | 5 => (third, 0, 255 - third)
  | 6 => (85 + third, 0, 171 - third)
  | _ => (170 + third, 0, 85 - third)

/-- The rainbow law has the sector table of R115 and the factors of R9. -/
abbrev StandardRainbow (c : Config) : Prop :=
  c.rainbowTable = defaultRainbowTable ∧ c.oneThird = 85#8 ∧ c.twoThirds = 170#8

/-- The spectrum law of R146 over numbers. -/
def spectrumNat (hue sat val : Nat) : Nat × Nat × Nat :=
  let floor := val * (255 - sat) / 256
  let amp := val - floor
  let up := (hue % 64) * amp / 64 + floor
  let down := (63 - hue % 64) * amp / 64 + floor
  if hue / 64 = 0 then (down, up, floor)
  else if hue / 64 = 1 then (floor, down, up)
  else (up, floor, down)

/-! ### The order of errors (30_encoding.md R92; 60_exceptions.md R247), read from the bits of the word -/

/-- `op`, `a`, `b` of a word as numbers (30_encoding.md R84). -/
def opNat (w : CmdWord) : Nat := w.toNat / 2 ^ 56

def aNat (w : CmdWord) : Nat := w.toNat / 2 ^ 40 % 2 ^ 16

def bNat (w : CmdWord) : Nat := w.toNat / 2 ^ 24 % 2 ^ 16

/-- The must-be-zero bits of each legal opcode, as 30_encoding.md R89 lists them. -/
def mbzTable : List (Nat × CmdWord) :=
  [(0x00, 0x00FFFFFFFFFFFFFF#64), (0x01, 0x00FFFFFFFF000000#64), (0x02, 0x00FFFFFFFF000000#64),
   (0x10, 0x000000FFFFFFFFFF#64), (0x11, 0x000000FFFFFFFFFF#64), (0x12, 0x000000FFFF000000#64),
   (0x13, 0x000000FFFFFFFFFF#64), (0x14, 0x00FFFFFFFF000000#64), (0x15, 0x0000000000000000#64),
   (0x16, 0x00FFFFFF00000000#64), (0x20, 0x000000FFFFFFFFFF#64), (0x21, 0x0000000000FFFFFF#64),
   (0x30, 0x00FFFFFFFFFFFFFF#64)]

/-- `op` is one of the thirteen opcodes of R89. -/
def LegalOp (w : CmdWord) : Prop := opNat w ∈ mbzTable.map Prod.fst

/-- A must-be-zero bit of the word's opcode is set (R91). -/
def StrayBit (w : CmdWord) : Prop := ∃ row ∈ mbzTable, row.1 = opNat w ∧ w &&& row.2 ≠ 0#64

/-- `ERR_REG` applies: a reserved register, or a write to a read-only one (10_state.md R24). -/
def BadRegister (w : CmdWord) : Prop :=
  (opNat w = 0x20 ∧ 6 ≤ aNat w) ∨ (opNat w = 0x21 ∧ aNat w ≠ 2 ∧ aNat w ≠ 3)

/-- `ERR_FIELD` applies to the value of `WRCTL` (42_framebuffer.md R170). -/
def WideValue (w : CmdWord) : Prop :=
  opNat w = 0x21 ∧ ((aNat w = 2 ∧ 255 < bNat w) ∨ (aNat w = 3 ∧ 1 < bNat w))

/-- `ERR_COUNT` applies (42_framebuffer.md R162, R163). -/
def BadCount (s : State) (w : CmdWord) : Prop := (opNat w = 0x10 ∨ opNat w = 0x11) ∧ s.cfg.ledMax < aNat w

/-- `ERR_INDEX` applies (42_framebuffer.md R165). -/
def BadIndex (s : State) (w : CmdWord) : Prop := opNat w = 0x13 ∧ s.ledCount.toNat ≤ aNat w

end Sys2Proof.Machine
end

