-- ==== Sys2Proof/Certificates/Slice0/Obligations.lean ====
section
/-! DEFINITION. The statements for the provers. A response is written as its status byte followed by its 24 data
bits (30_encoding.md R87; status codes of 60_exceptions.md R241): `0x00` OK, `0x01` ERR_OPCODE, `0x02` ERR_FIELD,
`0x03` ERR_INDEX, `0x04` ERR_COUNT, `0x05` ERR_REG. -/

open Sys2Proof Sys2Proof.Machine

/-! ### Encoding -/

/-- Decoding an encoded command gives it back, at every value of every operand (30_encoding.md R84, R86, R94). -/
def Obligations.DecodeInvertsEncode : Prop :=
  ∀ i : Instr, i.WellFormed = true → decode (encode i) = .ok i

/-- A word that decodes has one meaning and no spare bit: it is the encoding of what it decodes to (R88, R91). -/
def Obligations.EncodeInvertsDecode : Prop :=
  ∀ (w : CmdWord) (i : Instr), decode w = .ok i → i.WellFormed = true ∧ encode i = w

/-- The decoder rejects exactly the words of R90 and R91, in the order of R92 (1) and (2). -/
def Obligations.DecoderRejectsExactlyTheIllegalWords : Prop :=
  ∀ w : CmdWord,
    (decode w = .error .badOpcode ↔ ¬ LegalOp w) ∧ (decode w = .error .badField ↔ LegalOp w ∧ StrayBit w)

/-- "The value of the word is (op << 56) | (a << 40) | (b << 24) | (c0 << 16) | (c1 << 8) | c2", for the fields the
table of R94 gives each command. -/
def Obligations.EncodedWordHasTheValueOfItsFields : Prop :=
  ∀ i : Instr,
    let word (op a b : Nat) (c : Hsv) : Nat :=
      op * 2 ^ 56 + a * 2 ^ 40 + b * 2 ^ 24 + c.hue.toNat * 2 ^ 16 + c.sat.toNat * 2 ^ 8 + c.val.toNat
    let black : Hsv := { hue := 0#8, sat := 0#8, val := 0#8 }
    (encode i).toNat =
      match i with
      | .nop => word 0x00 0 0 black
      | .cvtrb c => word 0x01 0 0 c
      | .cvtsp c => word 0x02 0 0 c
      | .setup n => word 0x10 n.toNat 0 black
      | .resize n => word 0x11 n.toNat 0 black
      | .setled k c => word 0x12 k.toNat 0 c
      | .getled k => word 0x13 k.toNat 0 black
      | .fill c => word 0x14 0 0 c
      | .fillr k n c => word 0x15 k.toNat n.toNat c
      | .rainbow b c => word 0x16 0 b.toNat c
      | .rdctl r => word 0x20 r.toNat 0 black
      | .wrctl r x => word 0x21 r.toNat x.toNat black
      | .upload => word 0x30 0 0 black

/-- The ten worked encodings of R96 decode to the commands they stand for and are their encodings. -/
def Obligations.WorkedEncodingsDecode : Prop :=
  ∀ p ∈ [ (0x0000000000000000#64, Instr.nop),
          (0x010000000055FFFF#64, .cvtrb { hue := 85#8, sat := 255#8, val := 255#8 }),
          (0x1000030000000000#64, .setup 3#16),
          (0x1300040000000000#64, .getled 4#16),
          (0x120001000055FFFF#64, .setled 1#16 { hue := 85#8, sat := 255#8, val := 255#8 }),
          (0x150008006480FFFF#64, .fillr 8#16 100#16 { hue := 128#8, sat := 255#8, val := 255#8 }),
          (0x160000000AFAFFFF#64, .rainbow 10#16 { hue := 250#8, sat := 255#8, val := 255#8 }),
          (0x2000010000000000#64, .rdctl 1#16),
          (0x2100020080000000#64, .wrctl 2#16 128#16),
          (0x3000000000000000#64, .upload) ],
    decode p.1 = .ok p.2 ∧ encode p.2 = p.1

/-- Each pseudo-command of R95 is one command word, with the fields the rule gives it, and that word decodes to the
command it stands for. -/
def Obligations.PseudoCommandsAreSingleWords : Prop :=
  ∀ (x start len : Half) (c : Hsv),
    let colour : Nat := c.hue.toNat * 2 ^ 16 + c.sat.toNat * 2 ^ 8 + c.val.toNat
    (encode (Pseudo.setbri x).expand).toNat = 0x21 * 2 ^ 56 + 2 * 2 ^ 40 + x.toNat * 2 ^ 24 ∧
    encode Pseudo.setlawRainbow.expand = 0x2100030000000000#64 ∧
    encode Pseudo.setlawSpectrum.expand = 0x2100030001000000#64 ∧
    (encode (Pseudo.fillsolid c).expand).toNat = 0x14 * 2 ^ 56 + colour ∧
    (encode (Pseudo.fillsolidRange start len c).expand).toNat =
      0x15 * 2 ^ 56 + start.toNat * 2 ^ 40 + len.toNat * 2 ^ 24 + colour ∧
    encode Pseudo.showFrame.expand = 0x3000000000000000#64 ∧
    ∀ p : Pseudo, decode (encode p.expand) = .ok p.expand

/-! ### Reset and configuration -/

/-- The reset state of R271 (table of 10_state.md R36), for every configuration and for the default one: no entry is
visible, no command is in progress, no response is pending, no packet is in flight. -/
def Obligations.ResetLeavesTheResetState : Prop :=
  (∀ cfg : Config,
    let s := State.resetWith cfg
    s.cfg = cfg ∧ s.ledCount = 0#16 ∧ s.totalPkts = 0#8 ∧ s.bright = cfg.brightnessInit ∧ s.law = cfg.lawInit ∧
      (∀ i, ¬ i < s.ledCount.toNat) ∧ s.upload = none ∧ s.rsp = none) ∧
  State.reset = State.resetWith Config.default ∧ State.reset.bright = 255#8 ∧ State.reset.law = 0#1

/-- A step with the reset line high leaves the reset state from any state, in particular in the middle of an
`UPLOAD`, whose command then gets no response (70_reset_and_hazards.md R270 to R272). Three clauses are the model's:
`fb := []` is a choice, since R36 leaves the entries unspecified (notes/assumptions/3.md); `txr := []`, a result at hand
going with the `UPLOAD` it was for, is inferred from R246 (notes/assumptions/22.md); and that the other lines of the
outside world and what it has taken stay as they are is a choice (notes/assumptions/9.md). -/
def Obligations.ResetLineAbandonsTheCommand : Prop :=
  ∀ s : State, s.cfg.WellFormed → s.rst = true →
    step s = .next { s with
      ledCount := 0#16, totalPkts := 0#8, bright := s.cfg.brightnessInit, law := s.cfg.lawInit, fb := [],
      upload := none, rsp := none, txr := [] }

/-- The reset state of every well-formed configuration is a good state, and the default configuration is well
formed. -/
def Obligations.ResetStateIsGood : Prop :=
  (∀ cfg : Config, cfg.WellFormed → Good (State.resetWith cfg)) ∧ Good State.reset

/-- Exactly the configurations of 00_scope.md R8 are accepted; with `MAX_BYTES = 1400` condition (c) allows
`LED_MAX` up to 118405, and the default configuration (142 packets) is accepted. That the refusal falls on every step,
the reset step too, is the model's reading: R8 does not say at which moment (notes/assumptions/2.md). -/
def Obligations.IllFormedConfigurationsAreRefused : Prop :=
  (∀ s : State, step s = .refused .illFormedConfig ↔
    ¬ (10 ≤ s.cfg.maxBytes ∧ s.cfg.maxBytes ≤ 65542 ∧ s.cfg.ledMax ≤ 65535 ∧
       (3 * s.cfg.ledMax + (s.cfg.maxBytes - 7) - 1) / (s.cfg.maxBytes - 7) ≤ 255)) ∧
  (∀ n : Nat, (3 * n + (1400 - 7) - 1) / (1400 - 7) ≤ 255 ↔ n ≤ 118405) ∧
  step State.reset ≠ .refused .illFormedConfig ∧
  State.reset.cfg.ledMax = 65535 ∧ State.reset.cfg.totalPackets 65535 = 142

/-- The configuration never changes (10_state.md R35). -/
def Obligations.ConfigurationNeverChanges : Prop :=
  ∀ s t : State, step s = .next t → t.cfg = s.cfg

/-! ### Invariants -/

/-- Every step from a good state leads to a good state (10_state.md R37, R22; 43_packetizer.md R215). That an invisible
entry holds no value is the model's form of the memory (notes/assumptions/3.md, 4.md). -/
def Obligations.EveryStepKeepsGoodStatesGood : Prop :=
  ∀ s t : State, Good s → step s = .next t → Good t

/-- No step from a good state faults or is refused: no command reads an entry that holds no value (R37(c)), and every
command word has a defined outcome (30_encoding.md R90). The fault itself is the model's (notes/assumptions/3.md). -/
def Obligations.GoodStatesNeverStop : Prop :=
  ∀ s : State, Good s → ∃ t, step s = .next t

/-- Every command word presented is answered exactly once: while the reset line is low, a word is waiting, in
progress, answered and pending, or answered and taken, and no step loses or doubles one. The host takes responses
one at a time and in order (30_encoding.md R82). That a response is taken at the start of the next step is the model's
choice (notes/assumptions/7.md). -/
def Obligations.EveryWordIsAnsweredOnce : Prop :=
  ∀ s t : State, Good s → s.rst = false → step s = .next t →
    wordsAccounted t = wordsAccounted s ∧ (t.rspTaken = s.rspTaken ∨ t.rspTaken = s.rspTaken ++ s.rsp.toList)

/-- Whatever the outside world does between two steps leaves a good state good and changes its own line alone: the
host presents a word or drives `rsp_ready`, somebody drives the reset line, the Transport says how much it takes or
gives one result. A result given when the block does not wait for one is ignored (43_packetizer.md R222). The five
operations are the model's form of the lines (notes/assumptions/6.md, 8.md, 9.md). -/
def Obligations.OutsideWorldKeepsGoodStatesGood : Prop :=
  ∀ (s : State) (w : CmdWord) (b : Bool) (room : Option Nat) (r : SendResult), Good s →
    (Good (hostPresents w s) ∧ Good (hostReady b s) ∧ Good (driveReset b s) ∧ Good (transportTakes room s) ∧
      Good (resultPulse r s)) ∧
    hostPresents w s = { s with cmd := s.cmd ++ [w] } ∧ hostReady b s = { s with rspReady := b } ∧
    driveReset b s = { s with rst := b } ∧ transportTakes room s = { s with txRoom := room } ∧
    (s.upload = none → resultPulse r s = s) ∧
    (∀ u, s.upload = some u → u.pos < s.cfg.maxBytes → resultPulse r s = s) ∧
    (∀ u, s.upload = some u → u.pos = s.cfg.maxBytes → s.txr = [] → resultPulse r s = { s with txr := [r] }) ∧
    (s.txr ≠ [] → resultPulse r s = s)

/-! ### Steps -/

/-- A step that accepts a word which decodes to a command runs that command, in the state in which the word is off
the command channel and a pending response has been taken. -/
def Obligations.StepRunsTheDecodedCommand : Prop :=
  ∀ (s : State) (w : CmdWord) (rest : List CmdWord) (i : Instr),
    Accepting s w rest → decode w = .ok i → i.WellFormed = true → step s = exec i (accepted s rest)

/-- An illegal opcode answers ERR_OPCODE whatever the other 56 bits hold (R90; there are 243 of them), a stray bit
answers ERR_FIELD before any operand is interpreted (R91); neither changes any state, and every word has an
outcome. -/
def Obligations.IllegalWordsAnswerAnError : Prop :=
  (∀ (s : State) (w : CmdWord) (rest : List CmdWord), Accepting s w rest →
    (¬ LegalOp w → step s = .next { accepted s rest with rsp := some (0x01#8 ++ 0#24) }) ∧
    (LegalOp w → StrayBit w → step s = .next { accepted s rest with rsp := some (0x02#8 ++ 0#24) }) ∧
    (Good s → ∃ t, step s = .next t)) ∧
  ((List.range 256).filter (fun op => op ∉ mbzTable.map Prod.fst)).length = 243

/-- The first error in the order of 60_exceptions.md R247 is the one reported, with no state change; a word with no
error answers OK, or is an `UPLOAD` that waits for the Transport. That an `UPLOAD` may wait between two steps is the
model's choice (notes/assumptions/5.md). -/
def Obligations.ErrorsAreReportedInOrder : Prop :=
  ∀ (s : State) (w : CmdWord) (rest : List CmdWord), Good s → Accepting s w rest →
    let reply (code : Byte) : Host.Outcome State Fault Refusal :=
      .next { accepted s rest with rsp := some (code ++ 0#24) }
    (¬ LegalOp w → step s = reply 0x01#8) ∧
    (LegalOp w → StrayBit w → step s = reply 0x02#8) ∧
    (LegalOp w → ¬ StrayBit w → BadRegister w → step s = reply 0x05#8) ∧
    (LegalOp w → ¬ StrayBit w → ¬ BadRegister w → WideValue w → step s = reply 0x02#8) ∧
    (LegalOp w → ¬ StrayBit w → BadCount s w → step s = reply 0x04#8) ∧
    (LegalOp w → ¬ StrayBit w → BadIndex s w → step s = reply 0x03#8) ∧
    (LegalOp w → ¬ StrayBit w → ¬ BadRegister w → ¬ WideValue w → ¬ BadCount s w → ¬ BadIndex s w →
      ∃ t, step s = .next t ∧
        ((opNat w = 0x30 ∧ t.upload.isSome = true ∧ t.rsp = none) ∨
         (t.upload = none ∧ ∃ data : BitVec 24, t.rsp = some (0x00#8 ++ data))))

/-- A word that answers an error status has changed nothing but the response channel, has sent no packet, and its data
is zero: the block is ready for the next command as if the word had not been issued (60_exceptions.md R240). -/
def Obligations.AnErrorChangesNothing : Prop :=
  ∀ (s t : State) (w : CmdWord) (rest : List CmdWord) (r : RspWord), Accepting s w rest → step s = .next t →
    t.rsp = some r → r.extractLsb' 24 8 ≠ 0x00#8 →
    t = { accepted s rest with rsp := some r } ∧ r.extractLsb' 0 24 = 0#24

/-- Which commands can answer which status (60_exceptions.md R241); a command that runs never answers ERR_OPCODE. -/
def Obligations.StatusCodesByCommand : Prop :=
  ∀ (i : Instr) (s t : State) (r : RspWord), s.rsp = none → exec i s = .next t → t.rsp = some r →
    (r.extractLsb' 24 8 = 0x00#8) ∨
    (r.extractLsb' 24 8 = 0x02#8 ∧ ∃ reg x, i = .wrctl reg x) ∨
    (r.extractLsb' 24 8 = 0x03#8 ∧ ∃ k, i = .getled k) ∨
    (r.extractLsb' 24 8 = 0x04#8 ∧ ∃ n, i = .setup n ∨ i = .resize n) ∨
    (r.extractLsb' 24 8 = 0x05#8 ∧ ((∃ reg, i = .rdctl reg) ∨ ∃ reg x, i = .wrctl reg x))

/-- A response the host does not take stays pending and no further command is accepted; with no command presented
the block idles (30_encoding.md R83). -/
def Obligations.PendingResponseHoldsTheBlock : Prop :=
  (∀ (s : State) (r : RspWord), s.cfg.WellFormed → s.rst = false → s.rsp = some r → s.rspReady = false →
    step s = .next s) ∧
  (∀ s : State, s.cfg.WellFormed → s.rst = false → s.rsp = none → s.upload = none → s.cmd = [] → step s = .next s)

/-! ### Who writes what -/

/-- Every register and the FrameBuffer change only by the commands the spec names as their writers (10_state.md R25
to R28; 20_memory.md R50(a)). -/
def Obligations.EachRegisterHasItsWriters : Prop :=
  ∀ (i : Instr) (s t : State), exec i s = .next t →
    (t.ledCount ≠ s.ledCount ∨ t.totalPkts ≠ s.totalPkts → ∃ n, i = .setup n ∨ i = .resize n) ∧
    (t.bright ≠ s.bright → ∃ x, i = .wrctl 2#16 x ∧ x.toNat ≤ 255 ∧ t.bright.toNat = x.toNat) ∧
    (t.law ≠ s.law → ∃ x, i = .wrctl 3#16 x ∧ x.toNat ≤ 1 ∧ t.law.toNat = x.toNat) ∧
    (∀ k, readEntry t k ≠ readEntry s k →
      (∃ n, i = .setup n) ∨ (∃ n, i = .resize n) ∨ (∃ c, i = .setled (BitVec.ofNat 16 k) c) ∨ (∃ c, i = .fill c) ∨
      (∃ a n c, i = .fillr a n c) ∨ (∃ b c, i = .rainbow b c)) ∧
    (t.tx ≠ s.tx ∨ t.upload ≠ s.upload ∨ t.txr ≠ s.txr → i = .upload)

/-- No read has a side effect (20_memory.md R55): the reading commands change nothing but the response, and `UPLOAD`
leaves every register and the FrameBuffer as they are. -/
def Obligations.ReadingCommandsChangeNothing : Prop :=
  ∀ (i : Instr) (s t : State), exec i s = .next t →
    ((i = .nop ∨ (∃ c, i = .cvtrb c) ∨ (∃ c, i = .cvtsp c) ∨ (∃ k, i = .getled k) ∨ (∃ r, i = .rdctl r)) →
      t = { s with rsp := t.rsp }) ∧
    (i = .upload → t = { s with upload := t.upload, rsp := t.rsp, txRoom := t.txRoom, txr := t.txr, tx := t.tx })

/-- Every command but `UPLOAD` is idempotent: the same command again gives the same state and the same response
(20_memory.md R55). -/
def Obligations.CommandsAreIdempotent : Prop :=
  ∀ (i : Instr) (s t : State), i ≠ .upload → exec i s = .next t → exec i t = .next t

/-! ### Arithmetic and the colour laws -/

/-- `scale8` (40_hsv2rgb_rainbow.md R110): the formula, the range and the identities of the rule. -/
def Obligations.ScaleEightIsExact : Prop :=
  ∀ i s : Byte,
    (scale8 i s).toNat = (i.toNat * s.toNat) / 256 ∧ (scale8 i s).toNat ≤ 254 ∧
    (scale8 i 255#8).toNat = i.toNat - 1 ∧ scale8 i 0#8 = 0#8 ∧ scale8 0#8 s = 0#8

/-- `scale8_video` (40_hsv2rgb_rainbow.md R111): the formula and the identities of the rule. -/
def Obligations.ScaleEightVideoIsExact : Prop :=
  ∀ i s : Byte,
    (scale8Video i s).toNat = (i.toNat * s.toNat) / 256 + (if i ≠ 0#8 ∧ s ≠ 0#8 then 1 else 0) ∧
    (scale8Video i s = 0#8 ↔ i = 0#8 ∨ s = 0#8) ∧ scale8Video i 255#8 = i ∧ scale8Video 255#8 255#8 = 255#8

/-- The identity of R112: rescaling each nonzero channel by `scale8` plus 1 is `scale8_video`. -/
def Obligations.RescaleIsScaleEightVideo : Prop :=
  ∀ c x : Byte, x ≠ 0#8 → (if c ≠ 0#8 then add8 (scale8 c x) 1#8 else 0#8) = scale8Video c x

/-- The brightness multiplier and the consequences the rule draws (43_packetizer.md R201). -/
def Obligations.BrightnessMultiplierIsExact : Prop :=
  (∀ c b : Byte, (scaleBri c b).toNat = (c.toNat * b.toNat) / 255) ∧
  (∀ c : Byte, scaleBri c 255#8 = c ∧ scaleBri c 0#8 = 0#8 ∧ scaleBri 0#8 c = 0#8) ∧
  (∀ c b : Byte, (scaleBri c b).toNat ≤ min c.toNat b.toNat) ∧
  (∀ c c' b b' : Byte, c.toNat ≤ c'.toNat → b.toNat ≤ b'.toNat → (scaleBri c b).toNat ≤ (scaleBri c' b').toNat) ∧
  scaleBri 1#8 254#8 = 0#8 ∧
  (∀ p : Nat, p ≤ 65025 → p / 255 = (p + 1 + (p >>> 8)) >>> 8)

/-- The sector stage with the table of R115 and the factors of R9, which the default configuration has: no sum or
difference wraps. The table is from general knowledge (notes/assumptions/11.md). -/
def Obligations.SectorTableDoesNotWrap : Prop :=
  StandardRainbow Config.default ∧ ∀ (cfg : Config) (hue : Byte), StandardRainbow cfg →
    let c := sectorStage cfg hue
    (c.red.toNat, c.green.toNat, c.blue.toNat) = sectorNat hue.toNat

/-- `CVTRB` for every sector table and factor: the closed form of R119, channel by channel, on what the sector stage
gives; no other state changes and no state is read (R121). The branches of the value stage are from general knowledge
(notes/assumptions/12.md). -/
def Obligations.CvtrbAnswersTheClosedForm : Prop :=
  ∀ (s : State) (c : Hsv),
    let base := sectorStage s.cfg c.hue
    let out (c0 : Byte) : Byte := BitVec.ofNat 8 (rainbowNat c0.toNat c.sat.toNat c.val.toNat)
    exec (.cvtrb c) s = .next { s with rsp := some (0x00#8 ++ out base.red ++ out base.green ++ out base.blue) }

/-- `CVTRB` with the table of R115 and the factors of R9, over plain numbers from the hue on (R114 to R121). The table
and the branches of the value stage are from general knowledge (notes/assumptions/11.md, 12.md). -/
def Obligations.CvtrbAnswersTheRainbowLaw : Prop :=
  ∀ (s : State) (c : Hsv), StandardRainbow s.cfg →
    let base := sectorNat c.hue.toNat
    let out (c0 : Nat) : Byte := BitVec.ofNat 8 (rainbowNat c0 c.sat.toNat c.val.toNat)
    exec (.cvtrb c) s = .next { s with rsp := some (0x00#8 ++ out base.1 ++ out base.2.1 ++ out base.2.2) }

/-- The properties (b), (c), (d) and (f) of R120 for every sector table and factor, and (e) for the table of R115.
They rest on the value stage and the table taken from general knowledge (notes/assumptions/11.md, 12.md). -/
def Obligations.RainbowLawProperties : Prop :=
  ∀ (cfg : Config) (hue sat val : Byte),
    let out := hsv2rgbRainbow cfg { hue := hue, sat := sat, val := val }
    let grey (x : Byte) : Rgb := { red := x, green := x, blue := x }
    (sat = 0#8 → out = grey (scale8Video val val)) ∧
    (sat = 0#8 → val = 255#8 → out = grey 255#8) ∧
    (val = 0#8 → out = grey 0#8) ∧
    (sat = 255#8 → val = 255#8 → out = sectorStage cfg hue) ∧
    (sat ≠ 0#8 → sat ≠ 255#8 → val = 255#8 →
      1 ≤ (desat sat).toNat ∧ (desat sat).toNat ≤ out.red.toNat ∧ (desat sat).toNat ≤ out.green.toNat ∧
        (desat sat).toNat ≤ out.blue.toNat) ∧
    (cfg.rainbowTable = defaultRainbowTable → sat = 255#8 → out.red = 0#8 ∨ out.green = 0#8 ∨ out.blue = 0#8)

/-- `CVTSP` for every configuration: the law of R146 over plain numbers, under the `prescale` choice of D11 on the
hue `scale8(hue, 191)`; no other state changes (R147). The formulas are from general knowledge
(notes/assumptions/13.md, 14.md). -/
def Obligations.CvtspAnswersTheSpectrumLaw : Prop :=
  ∀ (s : State) (c : Hsv),
    let hue := match s.cfg.section3 with
      | .asSection2 => c.hue.toNat
      | .prescale => c.hue.toNat * 191 / 256
    let out := spectrumNat hue c.sat.toNat c.val.toNat
    exec (.cvtsp c) s = .next { s with
      rsp := some (0x00#8 ++ BitVec.ofNat 8 out.1 ++ BitVec.ofNat 8 out.2.1 ++ BitVec.ofNat 8 out.2.2) }

/-- The properties of the spectrum law (R145, R146): every channel lies between the floor and `val`, one equals the
floor, `val = 0` is black, `sat = 0` is the grey `val - 1`, and hue 192 to 255 repeats hue 128 to 191. The formulas are
from general knowledge and the treatment of section 3 is a choice (notes/assumptions/13.md, 14.md). -/
def Obligations.SpectrumLawProperties : Prop :=
  ∀ (sec3 : SpectrumSection3) (hue sat val : Byte),
    let floor := val.toNat * (255 - sat.toNat) / 256
    let out := hsv2rgbSpectrum sec3 { hue := hue, sat := sat, val := val }
    (floor ≤ out.red.toNat ∧ out.red.toNat ≤ val.toNat) ∧
    (floor ≤ out.green.toNat ∧ out.green.toNat ≤ val.toNat) ∧
    (floor ≤ out.blue.toNat ∧ out.blue.toNat ≤ val.toNat) ∧
    (out.red.toNat = floor ∨ out.green.toNat = floor ∨ out.blue.toNat = floor) ∧
    (val = 0#8 → out = { red := 0#8, green := 0#8, blue := 0#8 }) ∧
    (sat = 0#8 → out.red.toNat = val.toNat - 1 ∧ out.green.toNat = val.toNat - 1 ∧ out.blue.toNat = val.toNat - 1) ∧
    (sec3 = .asSection2 → 192 ≤ hue.toNat →
      out = hsv2rgbSpectrum sec3 { hue := BitVec.ofNat 8 (hue.toNat - 64), sat := sat, val := val })

/-! ### FrameBuffer commands -/

/-- `NOP` answers OK and changes nothing (42_framebuffer.md R161). -/
def Obligations.NopOnlyAnswers : Prop :=
  ∀ s : State, exec .nop s = .next { s with rsp := some (0x00#8 ++ 0#24) }

/-- `SETUP n` (R162; packet count of 43_packetizer.md R200). Entries beyond the count hold no value afterwards, which
is the model's way to drop what is not visible (notes/assumptions/4.md). -/
def Obligations.SetupCreatesTheBuffer : Prop :=
  ∀ (n : Half) (s : State), n.toNat ≤ s.cfg.ledMax →
    let total : Byte := BitVec.ofNat 8 ((3 * n.toNat + (s.cfg.maxBytes - 7) - 1) / (s.cfg.maxBytes - 7))
    ∃ t, exec (.setup n) s = .next t ∧
      t = { s with ledCount := n, totalPkts := total, fb := t.fb, rsp := some (0x00#8 ++ 0#16 ++ total) } ∧
      ∀ k, readEntry t k = if k < n.toNat then some s.cfg.defaultHsv else none

/-- `RESIZE n` (R163): survivors keep their values, new entries hold `RESIZE_FILL`. -/
def Obligations.ResizeKeepsTheSurvivors : Prop :=
  ∀ (n : Half) (s : State), n.toNat ≤ s.cfg.ledMax →
    let total : Byte := BitVec.ofNat 8 ((3 * n.toNat + (s.cfg.maxBytes - 7) - 1) / (s.cfg.maxBytes - 7))
    ∃ t, exec (.resize n) s = .next t ∧
      t = { s with ledCount := n, totalPkts := total, fb := t.fb, rsp := some (0x00#8 ++ 0#16 ++ total) } ∧
      ∀ k, readEntry t k =
        if k < n.toNat then (if k < s.ledCount.toNat then readEntry s k else some s.cfg.resizeFill) else none

/-- `SETUP` and `RESIZE` above `LED_MAX` answer ERR_COUNT and change nothing (R162, R163). -/
def Obligations.CountsAboveTheDepthAreErrors : Prop :=
  ∀ (n : Half) (s : State), s.cfg.ledMax < n.toNat →
    exec (.setup n) s = .next { s with rsp := some (0x04#8 ++ 0#24) } ∧
    exec (.resize n) s = .next { s with rsp := some (0x04#8 ++ 0#24) }

/-- `SETLED` in range stores one entry and leaves every other (R164). -/
def Obligations.SetledStoresOneEntry : Prop :=
  ∀ (a : Half) (c : Hsv) (s : State), a.toNat < s.ledCount.toNat →
    ∃ t, exec (.setled a c) s = .next t ∧ t = { s with fb := t.fb, rsp := some (0x00#8 ++ 0#24) } ∧
      ∀ k, readEntry t k = if k = a.toNat then some c else readEntry s k

/-- What is not an error (60_exceptions.md R243): an out-of-range `SETLED`, a `FILLR` range clamped to nothing, and
`FILL`, `RAINBOW` and `UPLOAD` on an empty FrameBuffer answer OK and write nothing; an `UPLOAD` that ends answers OK
whatever the sends returned. -/
def Obligations.SilentCasesAnswerOk : Prop :=
  (∀ (a : Half) (c : Hsv) (s : State), s.ledCount.toNat ≤ a.toNat →
    exec (.setled a c) s = .next { s with rsp := some (0x00#8 ++ 0#24) }) ∧
  (∀ (a n : Half) (c : Hsv) (s : State), min (a.toNat + n.toNat) s.ledCount.toNat ≤ a.toNat →
    ∃ t, exec (.fillr a n c) s = .next t ∧ t = { s with fb := t.fb, rsp := some (0x00#8 ++ 0#24) } ∧
      ∀ k, readEntry t k = readEntry s k) ∧
  (∀ (b : Half) (c : Hsv) (s : State), s.ledCount = 0#16 → s.totalPkts = 0#8 →
    (∃ t, exec (.fill c) s = .next t ∧ t = { s with fb := t.fb, rsp := some (0x00#8 ++ 0#24) } ∧
      ∀ k, readEntry t k = readEntry s k) ∧
    (∃ t, exec (.rainbow b c) s = .next t ∧ t = { s with fb := t.fb, rsp := some (0x00#8 ++ 0#24) } ∧
      ∀ k, readEntry t k = readEntry s k) ∧
    exec .upload s = .next { s with upload := none, rsp := some (0x00#8 ++ 0#24) }) ∧
  (∀ s t : State, exec .upload s = .next t → t.upload = none →
    ∃ data : BitVec 24, t.rsp = some (0x00#8 ++ data))

/-- `GETLED` in range answers the stored triple (R165); out of range it answers ERR_INDEX with no data (60_exceptions.md
R242). -/
def Obligations.GetledAnswersTheEntry : Prop :=
  ∀ (a : Half) (s : State),
    (∀ c, a.toNat < s.ledCount.toNat → readEntry s a.toNat = some c →
      exec (.getled a) s = .next { s with rsp := some (0x00#8 ++ c.hue ++ c.sat ++ c.val) }) ∧
    (s.ledCount.toNat ≤ a.toNat → exec (.getled a) s = .next { s with rsp := some (0x03#8 ++ 0#24) })

/-- A `GETLED` returns the value of the latest earlier write to its index, and a `SETLED` elsewhere does not matter
(20_memory.md R60). -/
def Obligations.GetledReturnsTheLatestWrite : Prop :=
  ∀ (a b : Half) (c : Hsv) (s t : State), a.toNat < s.ledCount.toNat → exec (.setled a c) s = .next t →
    exec (.getled a) t = .next { t with rsp := some (0x00#8 ++ c.hue ++ c.sat ++ c.val) } ∧
    (b ≠ a → ∀ r, exec (.getled b) s = .next { s with rsp := some r } →
      exec (.getled b) t = .next { t with rsp := some r })

/-- `FILL` stores the colour in every visible entry (R166). -/
def Obligations.FillStoresEveryEntry : Prop :=
  ∀ (c : Hsv) (s : State),
    ∃ t, exec (.fill c) s = .next t ∧ t = { s with fb := t.fb, rsp := some (0x00#8 ++ 0#24) } ∧
      ∀ k, readEntry t k = if k < s.ledCount.toNat then some c else readEntry s k

/-- `FILLR` stores the colour in entries `start` to `min(start + len, LEDCOUNT) - 1`; the sum does not wrap (R167). -/
def Obligations.FillrStoresTheClampedRange : Prop :=
  ∀ (start len : Half) (c : Hsv) (s : State),
    ∃ t, exec (.fillr start len c) s = .next t ∧ t = { s with fb := t.fb, rsp := some (0x00#8 ++ 0#24) } ∧
      ∀ k, readEntry t k =
        if start.toNat ≤ k ∧ k < start.toNat + len.toNat ∧ k < s.ledCount.toNat then some c else readEntry s k

/-- `RAINBOW` stores the hue ramp in every visible entry: hue `(c0 + d * i) mod 256`, which is also what a running
8-bit accumulator gives; saturation and value are copied (R168). -/
def Obligations.RainbowStoresTheRamp : Prop :=
  ∀ (b : Half) (c : Hsv) (s : State),
    let d : Nat := b.toNat % 256
    ∃ t, exec (.rainbow b c) s = .next t ∧ t = { s with fb := t.fb, rsp := some (0x00#8 ++ 0#24) } ∧
      (∀ k, readEntry t k =
        if k < s.ledCount.toNat then some { hue := BitVec.ofNat 8 (c.hue.toNat + d * k), sat := c.sat, val := c.val }
        else readEntry s k) ∧
      (0 < s.ledCount.toNat → readEntry t 0 = some c) ∧
      (∀ k x y, k + 1 < s.ledCount.toNat → readEntry t k = some x → readEntry t (k + 1) = some y →
        y = { hue := add8 x.hue (BitVec.ofNat 8 d), sat := x.sat, val := x.val })

/-! ### Control registers -/

/-- `RDCTL` answers each of the six registers, zero-extended, and ERR_REG for every other number (R169; 10_state.md
R24). -/
def Obligations.RdctlReadsTheRegisters : Prop :=
  ∀ (r : Half) (s : State), s.cfg.WellFormed →
    (r = 0#16 → exec (.rdctl r) s = .next { s with rsp := some (BitVec.ofNat 32 s.ledCount.toNat) }) ∧
    (r = 1#16 → exec (.rdctl r) s = .next { s with rsp := some (BitVec.ofNat 32 s.totalPkts.toNat) }) ∧
    (r = 2#16 → exec (.rdctl r) s = .next { s with rsp := some (BitVec.ofNat 32 s.bright.toNat) }) ∧
    (r = 3#16 → exec (.rdctl r) s = .next { s with rsp := some (BitVec.ofNat 32 s.law.toNat) }) ∧
    (r = 4#16 → exec (.rdctl r) s = .next { s with rsp := some (BitVec.ofNat 32 s.cfg.maxBytes) }) ∧
    (r = 5#16 → exec (.rdctl r) s = .next { s with rsp := some (BitVec.ofNat 32 s.cfg.ledMax) }) ∧
    (6 ≤ r.toNat → exec (.rdctl r) s = .next { s with rsp := some (0x05#8 ++ 0#24) })

/-- `WRCTL` writes `BRIGHT` and `LAW`, refuses values that are too wide, and refuses every other register before it
looks at the value (R170). -/
def Obligations.WrctlWritesBrightAndLaw : Prop :=
  ∀ (r x : Half) (s : State),
    (r = 2#16 → x.toNat ≤ 255 →
      exec (.wrctl r x) s = .next { s with bright := BitVec.ofNat 8 x.toNat, rsp := some (0x00#8 ++ 0#24) }) ∧
    (r = 2#16 → 255 < x.toNat → exec (.wrctl r x) s = .next { s with rsp := some (0x02#8 ++ 0#24) }) ∧
    (r = 3#16 → x.toNat ≤ 1 →
      exec (.wrctl r x) s = .next { s with law := BitVec.ofNat 1 x.toNat, rsp := some (0x00#8 ++ 0#24) }) ∧
    (r = 3#16 → 1 < x.toNat → exec (.wrctl r x) s = .next { s with rsp := some (0x02#8 ++ 0#24) }) ∧
    (r ≠ 2#16 → r ≠ 3#16 → exec (.wrctl r x) s = .next { s with rsp := some (0x05#8 ++ 0#24) })

/-! ### UPLOAD -/

/-- `UPLOAD` with a Transport that stalls nowhere and answers every send: it hands over exactly the frame of the
closed form, packets 1 to `TOTALPKTS` in order, consumes one answer per packet, and answers
`{0x00, sent, failed}`; nothing else changes (43_packetizer.md R200 to R217, closed form R215; side bands R218,
R221). A Transport that stalls is StalledTransportTakesAPrefix. -/
def Obligations.UploadSendsTheFrame : Prop :=
  ∀ s : State, s.cfg.WellFormed → s.txRoom = none → s.totalPkts.toNat ≤ s.txr.length →
    (∀ k, k < min s.ledCount.toNat (s.totalPkts.toNat * s.cfg.ledsPerPacket) → (readEntry s k).isSome = true) →
    exec .upload s = .next { s with
      upload := none
      tx := s.tx ++ frameOf s
      txr := s.txr.drop s.totalPkts.toNat
      rsp := some (0x00#8 ++ 0x00#8 ++ s.totalPkts ++
        BitVec.ofNat 8 (failures (s.txr.take s.totalPkts.toNat))) }

/-- With no packet to send, `UPLOAD` sends nothing and answers zero (R217). -/
def Obligations.EmptyFrameSendsNothing : Prop :=
  ∀ s : State, s.totalPkts = 0#8 → exec .upload s = .next { s with upload := none, rsp := some 0#32 }

/-- A Transport that takes every byte but never answers: `UPLOAD` hands over packet 1 and waits inside the command,
with no response; every later step then leaves the state as it is, so the block is stuck until a result or a reset
(43_packetizer.md R223; 93_implementation_defined.md U3). Where a step ends in a wait is the model's choice
(notes/assumptions/5.md). -/
def Obligations.SilentTransportHangsTheBlock : Prop :=
  ∀ s : State, Good s → s.rst = false → s.rsp = none → 0 < s.totalPkts.toNat → s.txRoom = none → s.txr = [] →
    ∃ u t, exec .upload s = .next t ∧ t = { s with tx := s.tx ++ packetOf s 1, upload := some u } ∧
      u.seq = 1#8 ∧ u.pos = s.cfg.maxBytes ∧ step t = .next t

/-- A Transport that takes only so many bytes, or answers only so many sends, wherever that stops the frame
(43_packetizer.md R221 to R223): with room for `r` bytes short of the whole frame exactly the first `r` are handed over
and the block waits in packet `r / MAX_BYTES + 1` at byte `r mod MAX_BYTES`; with room for the whole frame `UPLOAD` ends
as with a Transport that never stalls; with too few answers the block waits behind the first packet that has none.
Where a step ends in a wait is the model's choice (notes/assumptions/5.md, 8.md). -/
def Obligations.StalledTransportTakesAPrefix : Prop :=
  ∀ s : State, Good s → s.rst = false → s.rsp = none →
    let size := s.cfg.maxBytes
    let total := s.totalPkts.toNat
    let answers := s.txr.length
    (∀ r, s.txRoom = some r → r < total * size → r / size ≤ answers →
      ∃ u t, exec .upload s = .next t ∧
        t = { s with
          tx := s.tx ++ (frameOf s).take r, txRoom := some 0, txr := s.txr.drop (r / size), upload := some u } ∧
        u.seq.toNat = r / size + 1 ∧ u.pos = r % size ∧ u.failed.toNat = failures (s.txr.take (r / size)) ∧
        step t = .next t) ∧
    (∀ r, s.txRoom = some r → total * size ≤ r → total ≤ answers →
      exec .upload s = .next { s with
        upload := none
        tx := s.tx ++ frameOf s
        txRoom := some (r - total * size)
        txr := s.txr.drop total
        rsp := some (0x00#8 ++ 0x00#8 ++ s.totalPkts ++ BitVec.ofNat 8 (failures (s.txr.take total))) }) ∧
    (answers < total → (∀ r, s.txRoom = some r → (answers + 1) * size ≤ r) →
      ∃ u t, exec .upload s = .next t ∧
        t = { s with
          tx := s.tx ++ (frameOf s).take ((answers + 1) * size)
          txRoom := s.txRoom.map (fun r => r - (answers + 1) * size)
          txr := []
          upload := some u } ∧
        u.seq.toNat = answers + 1 ∧ u.pos = size ∧ u.failed.toNat = failures s.txr ∧ step t = .next t)

/-- A waiting `UPLOAD`, stopped at any byte of any packet, goes on with the rest of the frame from that byte
(43_packetizer.md R210, R216, R221 to R223): where the Transport takes all of it and answers, `UPLOAD` ends and answers
as one uninterrupted `UPLOAD` would; where it stalls again, or answers too few sends, exactly the bytes it takes are
handed over and the block waits at the byte after them. Where a step ends in a wait is the model's choice
(notes/assumptions/5.md, 8.md). -/
def Obligations.ResumedUploadSendsTheRest : Prop :=
  ∀ (s : State) (u : Upload), Good s → s.rst = false → s.upload = some u →
    let size := s.cfg.maxBytes
    let left := s.totalPkts.toNat - u.seq.toNat + 1
    let answers := s.txr.length
    let rest := restOfFrame s u.seq.toNat u.pos
    ((∀ r, s.txRoom = some r → left * size ≤ u.pos + r) → left ≤ answers →
      step s = .next { s with
        upload := none
        tx := s.tx ++ rest
        txRoom := s.txRoom.map (fun r => r - (left * size - u.pos))
        txr := s.txr.drop left
        rsp := some (0x00#8 ++ 0x00#8 ++ s.totalPkts ++
          BitVec.ofNat 8 (u.failed.toNat + failures (s.txr.take left))) }) ∧
    (∀ r, s.txRoom = some r → u.pos + r < left * size → (u.pos + r) / size ≤ answers →
      ∃ v t, step s = .next t ∧
        t = { s with
          tx := s.tx ++ rest.take r, txRoom := some 0, txr := s.txr.drop ((u.pos + r) / size), upload := some v } ∧
        v.seq.toNat = u.seq.toNat + (u.pos + r) / size ∧ v.pos = (u.pos + r) % size ∧
        v.failed.toNat = u.failed.toNat + failures (s.txr.take ((u.pos + r) / size)) ∧ step t = .next t) ∧
    (answers < left → (∀ r, s.txRoom = some r → (answers + 1) * size ≤ u.pos + r) →
      ∃ v t, step s = .next t ∧
        t = { s with
          tx := s.tx ++ rest.take ((answers + 1) * size - u.pos)
          txRoom := s.txRoom.map (fun r => r - ((answers + 1) * size - u.pos))
          txr := []
          upload := some v } ∧
        v.seq.toNat = u.seq.toNat + answers ∧ v.pos = size ∧ v.failed.toNat = u.failed.toNat + failures s.txr ∧
        step t = .next t)

/-- It does not matter when the answers arrive or where the Transport stalls: an `UPLOAD` that waits, just begun or
gone on with, and is then given more answers and more room, does exactly what it does with all of them at once
(43_packetizer.md R221 to R223; notes/assumptions/5.md, 6.md, 8.md). -/
def Obligations.LateAnswersGiveTheSameFrame : Prop :=
  (∀ (s t : State) (xs ys : List SendResult), s.cfg.WellFormed → s.rst = false → s.rsp = none → s.txRoom = none →
    exec .upload { s with txr := xs } = .next t → t.upload.isSome = true →
    step { t with txr := ys } = exec .upload { s with txr := xs ++ ys }) ∧
  (∀ (s t : State) (ys : List SendResult) (more : Nat), s.cfg.WellFormed → s.rst = false → s.rsp = none →
    exec .upload s = .next t → t.upload.isSome = true →
    step { t with txr := t.txr ++ ys, txRoom := t.txRoom.map (fun r => r + more) } =
      exec .upload { s with txr := s.txr ++ ys, txRoom := s.txRoom.map (fun r => r + more) } ∧
    step { t with txr := t.txr ++ ys, txRoom := none } =
      exec .upload { s with txr := s.txr ++ ys, txRoom := none }) ∧
  (∀ (s t : State) (ys : List SendResult) (more : Nat), Good s → s.rst = false → s.upload.isSome = true →
    step s = .next t → t.upload.isSome = true →
    step { t with txr := t.txr ++ ys, txRoom := t.txRoom.map (fun r => r + more) } =
      step { s with txr := s.txr ++ ys, txRoom := s.txRoom.map (fun r => r + more) } ∧
    step { t with txr := t.txr ++ ys, txRoom := none } = step { s with txr := s.txr ++ ys, txRoom := none })

/-- A failed send changes nothing but the `failed` count (43_packetizer.md R224): whatever the answers are, the frame
is sent whole and the command completes; for any two lists of answers the states differ in the answers left and in the
low byte of the response alone. -/
def Obligations.FailedSendsOnlyCount : Prop :=
  ∀ (s : State) (xs ys : List SendResult), Good s → s.txRoom = none →
    s.totalPkts.toNat ≤ xs.length → s.totalPkts.toNat ≤ ys.length →
    ∃ t t', exec .upload { s with txr := xs } = .next t ∧ exec .upload { s with txr := ys } = .next t' ∧
      t.tx = s.tx ++ frameOf s ∧ t' = { t with txr := t'.txr, rsp := t'.rsp } ∧
      t'.rsp.map (fun r => r.extractLsb' 8 24) = t.rsp.map (fun r => r.extractLsb' 8 24) ∧
      t.rsp.map (fun r => (r.extractLsb' 0 8).toNat) = some (failures (xs.take s.totalPkts.toNat)) ∧
      t'.rsp.map (fun r => (r.extractLsb' 0 8).toNat) = some (failures (ys.take s.totalPkts.toNat))

/-- Every packet the Transport sees is framed (43_packetizer.md R218, R221; 20_memory.md R56): packet `k + 1` starts
at beat `k * MAX_BYTES` with the two start markers, carries its number and the total, ends with the end marker, and
`tx_last` is high with its last byte alone. The three markers are those of the configuration; the default one has the
values of 00_scope.md R9. -/
def Obligations.EveryPacketIsFramed : Prop :=
  (Config.default.startMarker = 0x9C#8 ∧ Config.default.typeMarker = 0xDA#8 ∧ Config.default.endMarker = 0x36#8) ∧
  ∀ s t : State, Good s → s.txRoom = none → s.totalPkts.toNat ≤ s.txr.length → exec .upload s = .next t →
    ∃ sent : List Beat, t.tx = s.tx ++ sent ∧ sent.length = s.totalPkts.toNat * s.cfg.maxBytes ∧
      ∀ k, k < s.totalPkts.toNat →
        (sent[k * s.cfg.maxBytes]?.map Beat.data = some s.cfg.startMarker) ∧
        (sent[k * s.cfg.maxBytes + 1]?.map Beat.data = some s.cfg.typeMarker) ∧
        (sent[k * s.cfg.maxBytes + 4]?.map Beat.data = some (BitVec.ofNat 8 (k + 1))) ∧
        (sent[k * s.cfg.maxBytes + 5]?.map Beat.data = some s.totalPkts) ∧
        (sent[k * s.cfg.maxBytes + (s.cfg.maxBytes - 1)]?.map Beat.data = some s.cfg.endMarker) ∧
        ∀ j, j < s.cfg.maxBytes →
          (sent[k * s.cfg.maxBytes + j]?.map Beat.last = some (decide (j + 1 = s.cfg.maxBytes))) ∧
          (sent[k * s.cfg.maxBytes + j]?.map Beat.sof = some (decide (k = 0))) ∧
          (sent[k * s.cfg.maxBytes + j]?.map Beat.eof = some (decide (k + 1 = s.totalPkts.toNat)))

/-- The payload of the packets the Transport sees (43_packetizer.md R203, R214, R215; 20_memory.md R52, R57): packet
`k + 1` announces `3 * m` payload bytes, big-endian; its `j`-th triplet is red, green, blue of LED `k * P + j`,
converted and then brightness-scaled; every byte after the last triplet is zero up to the end marker. The two laws are
those of notes/assumptions/11.md to 14.md. -/
def Obligations.PayloadIsTheConvertedStrip : Prop :=
  ∀ s t : State, Good s → s.txRoom = none → s.totalPkts.toNat ≤ s.txr.length → exec .upload s = .next t →
    ∃ sent : List Beat, t.tx = s.tx ++ sent ∧
      ∀ k, k < s.totalPkts.toNat →
        let per := (s.cfg.maxBytes - 7) / 3
        let m := min per (s.ledCount.toNat - k * per)
        let byte (off : Nat) : Option Byte := sent[k * s.cfg.maxBytes + off]?.map Beat.data
        1 ≤ m ∧ byte 2 = some (BitVec.ofNat 8 (3 * m / 256)) ∧ byte 3 = some (BitVec.ofNat 8 (3 * m % 256)) ∧
        (∀ j, j < m → ∃ c, readEntry s (k * per + j) = some c ∧
          let rgb := if s.law = 0#1 then hsv2rgbRainbow s.cfg c else hsv2rgbSpectrum s.cfg.section3 c
          byte (6 + 3 * j) = some (scaleBri rgb.red s.bright) ∧
          byte (6 + 3 * j + 1) = some (scaleBri rgb.green s.bright) ∧
          byte (6 + 3 * j + 2) = some (scaleBri rgb.blue s.bright)) ∧
        (∀ off, 6 + 3 * m ≤ off → off + 1 < s.cfg.maxBytes → byte off = some 0x00#8)

/-- The packet under-count (43_packetizer.md R219): where `TOTALPKTS * P < LEDCOUNT`, every packet is full and the
LEDs from `TOTALPKTS * P` on are in no packet: two states that differ in those entries alone send the same bytes. -/
def Obligations.UndercountedTailIsNeverSent : Prop :=
  ∀ (s : State) (fb' : Memory Hsv), Good s → s.totalPkts.toNat * s.cfg.ledsPerPacket < s.ledCount.toNat →
    (∀ k, 1 ≤ k → k ≤ s.totalPkts.toNat → tripletCount s.cfg s.ledCount.toNat k = s.cfg.ledsPerPacket) ∧
    ((∀ i, i < s.totalPkts.toNat * s.cfg.ledsPerPacket → Memory.lookup fb' i = readEntry s i) →
      s.txRoom = none → s.totalPkts.toNat ≤ s.txr.length →
      ∃ t t', exec .upload s = .next t ∧ exec .upload { s with fb := fb' } = .next t' ∧
        t'.tx = t.tx ∧ t'.rsp = t.rsp ∧ t'.txr = t.txr)

/-- When the under-count can happen (R219; 70_reset_and_hazards.md R276): never when the payload region is a whole
number of triplets; with `MAX_BYTES = 1400` first at 1393 LEDs and not at 1394. -/
def Obligations.UndercountNeedsASpareByte : Prop :=
  (∀ (c : Config) (n : Nat), c.WellFormed → c.payloadCap % 3 = 0 → carriesAll c n (c.totalPackets n)) ∧
  (∀ n : Nat, n < 1393 → carriesAll Config.default n (Config.default.totalPackets n)) ∧
  ¬ carriesAll Config.default 1393 (Config.default.totalPackets 1393) ∧
  carriesAll Config.default 1394 (Config.default.totalPackets 1394)

/-- At `BRIGHT = 0` the normal number of packets is sent, with every payload byte zero (R217, R201). -/
def Obligations.ZeroBrightnessSendsDarkPackets : Prop :=
  ∀ s t : State, Good s → s.bright = 0#8 → s.txRoom = none → s.totalPkts.toNat ≤ s.txr.length →
    exec .upload s = .next t →
    ∃ sent : List Beat, t.tx = s.tx ++ sent ∧ sent.length = s.totalPkts.toNat * s.cfg.maxBytes ∧
      ∀ k off, k < s.totalPkts.toNat → 6 ≤ off → off + 1 < s.cfg.maxBytes →
        sent[k * s.cfg.maxBytes + off]?.map Beat.data = some 0x00#8

/-- No result of a send is ever pending outside the `UPLOAD` that waits for it (60_exceptions.md R246;
43_packetizer.md R222, R223): a result at hand belongs to a packet handed over whole, whatever the outside world does
keeps it so, and every step, a reset included, consumes or drops it, so that it never answers a later send. That reset
drops it is inferred (notes/assumptions/22.md). -/
def Obligations.NoResultIsPendingOutsideUpload : Prop :=
  (∀ cfg : Config, ResultsAwaited (State.resetWith cfg)) ∧
  (∀ (s : State) (w : CmdWord) (b : Bool) (room : Option Nat) (r : SendResult), ResultsAwaited s →
    ResultsAwaited (hostPresents w s) ∧ ResultsAwaited (hostReady b s) ∧ ResultsAwaited (driveReset b s) ∧
      ResultsAwaited (transportTakes room s) ∧ ResultsAwaited (resultPulse r s)) ∧
  (∀ s t : State, Good s → ResultsAwaited s → step s = .next t → t.txr = [] ∧ ResultsAwaited t)
end

