-- ==== Sys2Proof/Laws/Arith.lean ====
section
/-! SUPPORT. The arithmetic primitives over plain numbers: no result wraps. -/

namespace Sys2Proof.Machine

theorem mul_lt_65536 (a b : Byte) : a.toNat * b.toNat ≤ 255 * 255 :=
  Nat.mul_le_mul (by omega) (by omega)

@[simp] theorem add8_toNat (a b : Byte) : (add8 a b).toNat = (a.toNat + b.toNat) % 256 := by
  simp [add8]

@[simp] theorem sub8_toNat (a b : Byte) : (sub8 a b).toNat = (256 + a.toNat - b.toNat) % 256 := by
  simp [sub8]

/-- Where the difference does not wrap, `sub8` is subtraction. -/
theorem sub8_toNat_of_le {a b : Byte} (h : b.toNat ≤ a.toNat) : (sub8 a b).toNat = a.toNat - b.toNat := by
  rw [sub8_toNat]; omega

/-- The result of `scale8` never wraps (40_hsv2rgb_rainbow.md R110). -/
@[simp] theorem scale8_toNat (i s : Byte) : (scale8 i s).toNat = i.toNat * s.toNat / 256 := by
  have := mul_lt_65536 i s
  simp only [scale8, Nat.shiftRight_eq_div_pow, BitVec.toNat_ofNat]
  omega

/-- The result of `scale8_video` never wraps (40_hsv2rgb_rainbow.md R111). -/
@[simp] theorem scale8Video_toNat (i s : Byte) : (scale8Video i s).toNat = videoNat i.toNat s.toNat := by
  have := mul_lt_65536 i s
  simp only [scale8Video, videoNat, Nat.shiftRight_eq_div_pow, BitVec.toNat_ofNat, ← BitVec.toNat_inj, ne_eq,
    BitVec.toNat_ofNat]
  by_cases h : i.toNat = 0 ∨ s.toNat = 0
  · rw [if_neg (by simp; omega), if_pos h]; omega
  · rw [if_pos (by simp; omega), if_neg h]; omega

/-- The result of `scale_bri` never wraps (43_packetizer.md R201). -/
@[simp] theorem scaleBri_toNat (c b : Byte) : (scaleBri c b).toNat = c.toNat * b.toNat / 255 := by
  have := mul_lt_65536 c b
  simp only [scaleBri, BitVec.toNat_ofNat]
  omega

end Sys2Proof.Machine
end

