-- ==== Sys2Proof/Laws/Encoding.lean ====
section
/-! SUPPORT. The fields of a packed word and the packing of a word's fields (30_encoding.md R84, R94). -/

namespace Sys2Proof

/-- A packed word as a number. -/
theorem packWord_toNat (op : Byte) (a b : Half) (c : Hsv) : (packWord op a b c).toNat =
    op.toNat * 2 ^ 56 + a.toNat * 2 ^ 40 + b.toNat * 2 ^ 24 + c.hue.toNat * 2 ^ 16 + c.sat.toNat * 2 ^ 8 + c.val.toNat := by
  have h (x y n : Nat) (hy : y < 2 ^ n) : x <<< n ||| y = x * 2 ^ n + y := by
    rw [← Nat.shiftLeft_add_eq_or_of_lt hy, Nat.shiftLeft_eq]
  simp only [packWord, BitVec.toNat_append]
  rw [h _ _ 8 c.val.isLt, h _ _ 8 c.sat.isLt, h _ _ 8 c.hue.isLt, h _ _ 16 b.isLt, h _ _ 16 a.isLt]
  ring

theorem fieldOp_toNat (w : CmdWord) : (fieldOp w).toNat = w.toNat / 2 ^ 56 := by
  simp only [fieldOp, BitVec.extractLsb'_toNat, Nat.shiftRight_eq_div_pow]
  omega

theorem fieldA_toNat (w : CmdWord) : (fieldA w).toNat = w.toNat / 2 ^ 40 % 2 ^ 16 := by
  simp only [fieldA, BitVec.extractLsb'_toNat, Nat.shiftRight_eq_div_pow]

theorem fieldB_toNat (w : CmdWord) : (fieldB w).toNat = w.toNat / 2 ^ 24 % 2 ^ 16 := by
  simp only [fieldB, BitVec.extractLsb'_toNat, Nat.shiftRight_eq_div_pow]

theorem fieldCol_hue_toNat (w : CmdWord) : (fieldCol w).hue.toNat = w.toNat / 2 ^ 16 % 2 ^ 8 := by
  simp only [fieldCol, BitVec.extractLsb'_toNat, Nat.shiftRight_eq_div_pow]

theorem fieldCol_sat_toNat (w : CmdWord) : (fieldCol w).sat.toNat = w.toNat / 2 ^ 8 % 2 ^ 8 := by
  simp only [fieldCol, BitVec.extractLsb'_toNat, Nat.shiftRight_eq_div_pow]

theorem fieldCol_val_toNat (w : CmdWord) : (fieldCol w).val.toNat = w.toNat % 2 ^ 8 := by
  simp only [fieldCol, BitVec.extractLsb'_toNat, Nat.shiftRight_eq_div_pow, Nat.pow_zero, Nat.div_one]

@[simp] theorem fieldOp_packWord (op : Byte) (a b : Half) (c : Hsv) : fieldOp (packWord op a b c) = op := by
  apply BitVec.eq_of_toNat_eq; rw [fieldOp_toNat, packWord_toNat]; omega

@[simp] theorem fieldA_packWord (op : Byte) (a b : Half) (c : Hsv) : fieldA (packWord op a b c) = a := by
  apply BitVec.eq_of_toNat_eq; rw [fieldA_toNat, packWord_toNat]; omega

@[simp] theorem fieldB_packWord (op : Byte) (a b : Half) (c : Hsv) : fieldB (packWord op a b c) = b := by
  apply BitVec.eq_of_toNat_eq; rw [fieldB_toNat, packWord_toNat]; omega

@[simp] theorem fieldCol_packWord (op : Byte) (a b : Half) (c : Hsv) : fieldCol (packWord op a b c) = c := by
  obtain ⟨h, s, v⟩ := c
  have e1 := fieldCol_hue_toNat (packWord op a b ⟨h, s, v⟩)
  have e2 := fieldCol_sat_toNat (packWord op a b ⟨h, s, v⟩)
  have e3 := fieldCol_val_toNat (packWord op a b ⟨h, s, v⟩)
  rw [packWord_toNat] at e1 e2 e3
  cases hc : fieldCol (packWord op a b ⟨h, s, v⟩)
  simp only [hc] at e1 e2 e3
  simp only [Hsv.mk.injEq]
  refine ⟨BitVec.eq_of_toNat_eq ?_, BitVec.eq_of_toNat_eq ?_, BitVec.eq_of_toNat_eq ?_⟩ <;> omega

/-- Every word is the packing of its own fields. -/
theorem packWord_fields (w : CmdWord) : packWord (fieldOp w) (fieldA w) (fieldB w) (fieldCol w) = w := by
  apply BitVec.eq_of_toNat_eq
  rw [packWord_toNat, fieldOp_toNat, fieldA_toNat, fieldB_toNat, fieldCol_hue_toNat, fieldCol_sat_toNat,
    fieldCol_val_toNat]
  omega

/-- The table of R89 lists each opcode once. -/
theorem opTable_nodup : opTable.Pairwise (fun x y => x.op ≠ y.op) := by decide

/-- The row an opcode byte selects is in the table and has that opcode. -/
theorem lookupOp_some {op : Byte} {row : OpRow} (h : lookupOp op = some row) : row ∈ opTable ∧ row.op = op :=
  ⟨List.mem_of_find?_eq_some h, by simpa using List.find?_some h⟩

theorem lookupOp_none {op : Byte} (h : lookupOp op = none) : ∀ row ∈ opTable, row.op ≠ op := by
  simpa [lookupOp] using h

end Sys2Proof
end

