-- ==== Sys2Proof/Laws/State.lean ====
section
/-! SUPPORT. One lemma per field per named update of the state, so that no later proof unfolds a record update. -/

namespace Sys2Proof.Machine

/-! ### `writeEntries` -/

@[simp] theorem writeEntries_cfg (lo hi : Nat) (f : Nat → Hsv) (s : State) : (writeEntries lo hi f s).cfg = s.cfg := rfl
@[simp] theorem writeEntries_ledCount (lo hi : Nat) (f : Nat → Hsv) (s : State) : (writeEntries lo hi f s).ledCount = s.ledCount := rfl
@[simp] theorem writeEntries_totalPkts (lo hi : Nat) (f : Nat → Hsv) (s : State) : (writeEntries lo hi f s).totalPkts = s.totalPkts := rfl
@[simp] theorem writeEntries_bright (lo hi : Nat) (f : Nat → Hsv) (s : State) : (writeEntries lo hi f s).bright = s.bright := rfl
@[simp] theorem writeEntries_law (lo hi : Nat) (f : Nat → Hsv) (s : State) : (writeEntries lo hi f s).law = s.law := rfl
@[simp] theorem writeEntries_fb (lo hi : Nat) (f : Nat → Hsv) (s : State) : (writeEntries lo hi f s).fb = s.fb.setRange lo hi f := rfl
@[simp] theorem writeEntries_upload (lo hi : Nat) (f : Nat → Hsv) (s : State) : (writeEntries lo hi f s).upload = s.upload := rfl
@[simp] theorem writeEntries_rsp (lo hi : Nat) (f : Nat → Hsv) (s : State) : (writeEntries lo hi f s).rsp = s.rsp := rfl
@[simp] theorem writeEntries_rst (lo hi : Nat) (f : Nat → Hsv) (s : State) : (writeEntries lo hi f s).rst = s.rst := rfl
@[simp] theorem writeEntries_cmd (lo hi : Nat) (f : Nat → Hsv) (s : State) : (writeEntries lo hi f s).cmd = s.cmd := rfl
@[simp] theorem writeEntries_rspReady (lo hi : Nat) (f : Nat → Hsv) (s : State) : (writeEntries lo hi f s).rspReady = s.rspReady := rfl
@[simp] theorem writeEntries_txRoom (lo hi : Nat) (f : Nat → Hsv) (s : State) : (writeEntries lo hi f s).txRoom = s.txRoom := rfl
@[simp] theorem writeEntries_txr (lo hi : Nat) (f : Nat → Hsv) (s : State) : (writeEntries lo hi f s).txr = s.txr := rfl
@[simp] theorem writeEntries_rspTaken (lo hi : Nat) (f : Nat → Hsv) (s : State) : (writeEntries lo hi f s).rspTaken = s.rspTaken := rfl
@[simp] theorem writeEntries_tx (lo hi : Nat) (f : Nat → Hsv) (s : State) : (writeEntries lo hi f s).tx = s.tx := rfl

/-! ### `setCount` -/

@[simp] theorem setCount_cfg (n : Half) (s : State) : (setCount n s).cfg = s.cfg := rfl
@[simp] theorem setCount_ledCount (n : Half) (s : State) : (setCount n s).ledCount = n := rfl
@[simp] theorem setCount_totalPkts (n : Half) (s : State) : (setCount n s).totalPkts = BitVec.ofNat 8 (s.cfg.totalPackets n.toNat) := rfl
@[simp] theorem setCount_bright (n : Half) (s : State) : (setCount n s).bright = s.bright := rfl
@[simp] theorem setCount_law (n : Half) (s : State) : (setCount n s).law = s.law := rfl
@[simp] theorem setCount_fb (n : Half) (s : State) : (setCount n s).fb = s.fb.keepBelow n.toNat := rfl
@[simp] theorem setCount_upload (n : Half) (s : State) : (setCount n s).upload = s.upload := rfl
@[simp] theorem setCount_rsp (n : Half) (s : State) : (setCount n s).rsp = s.rsp := rfl
@[simp] theorem setCount_rst (n : Half) (s : State) : (setCount n s).rst = s.rst := rfl
@[simp] theorem setCount_cmd (n : Half) (s : State) : (setCount n s).cmd = s.cmd := rfl
@[simp] theorem setCount_rspReady (n : Half) (s : State) : (setCount n s).rspReady = s.rspReady := rfl
@[simp] theorem setCount_txRoom (n : Half) (s : State) : (setCount n s).txRoom = s.txRoom := rfl
@[simp] theorem setCount_txr (n : Half) (s : State) : (setCount n s).txr = s.txr := rfl
@[simp] theorem setCount_rspTaken (n : Half) (s : State) : (setCount n s).rspTaken = s.rspTaken := rfl
@[simp] theorem setCount_tx (n : Half) (s : State) : (setCount n s).tx = s.tx := rfl

/-! ### `setBright` -/

@[simp] theorem setBright_cfg (v : Byte) (s : State) : (setBright v s).cfg = s.cfg := rfl
@[simp] theorem setBright_ledCount (v : Byte) (s : State) : (setBright v s).ledCount = s.ledCount := rfl
@[simp] theorem setBright_totalPkts (v : Byte) (s : State) : (setBright v s).totalPkts = s.totalPkts := rfl
@[simp] theorem setBright_bright (v : Byte) (s : State) : (setBright v s).bright = v := rfl
@[simp] theorem setBright_law (v : Byte) (s : State) : (setBright v s).law = s.law := rfl
@[simp] theorem setBright_fb (v : Byte) (s : State) : (setBright v s).fb = s.fb := rfl
@[simp] theorem setBright_upload (v : Byte) (s : State) : (setBright v s).upload = s.upload := rfl
@[simp] theorem setBright_rsp (v : Byte) (s : State) : (setBright v s).rsp = s.rsp := rfl
@[simp] theorem setBright_rst (v : Byte) (s : State) : (setBright v s).rst = s.rst := rfl
@[simp] theorem setBright_cmd (v : Byte) (s : State) : (setBright v s).cmd = s.cmd := rfl
@[simp] theorem setBright_rspReady (v : Byte) (s : State) : (setBright v s).rspReady = s.rspReady := rfl
@[simp] theorem setBright_txRoom (v : Byte) (s : State) : (setBright v s).txRoom = s.txRoom := rfl
@[simp] theorem setBright_txr (v : Byte) (s : State) : (setBright v s).txr = s.txr := rfl
@[simp] theorem setBright_rspTaken (v : Byte) (s : State) : (setBright v s).rspTaken = s.rspTaken := rfl
@[simp] theorem setBright_tx (v : Byte) (s : State) : (setBright v s).tx = s.tx := rfl

/-! ### `setLaw` -/

@[simp] theorem setLaw_cfg (v : BitVec 1) (s : State) : (setLaw v s).cfg = s.cfg := rfl
@[simp] theorem setLaw_ledCount (v : BitVec 1) (s : State) : (setLaw v s).ledCount = s.ledCount := rfl
@[simp] theorem setLaw_totalPkts (v : BitVec 1) (s : State) : (setLaw v s).totalPkts = s.totalPkts := rfl
@[simp] theorem setLaw_bright (v : BitVec 1) (s : State) : (setLaw v s).bright = s.bright := rfl
@[simp] theorem setLaw_law (v : BitVec 1) (s : State) : (setLaw v s).law = v := rfl
@[simp] theorem setLaw_fb (v : BitVec 1) (s : State) : (setLaw v s).fb = s.fb := rfl
@[simp] theorem setLaw_upload (v : BitVec 1) (s : State) : (setLaw v s).upload = s.upload := rfl
@[simp] theorem setLaw_rsp (v : BitVec 1) (s : State) : (setLaw v s).rsp = s.rsp := rfl
@[simp] theorem setLaw_rst (v : BitVec 1) (s : State) : (setLaw v s).rst = s.rst := rfl
@[simp] theorem setLaw_cmd (v : BitVec 1) (s : State) : (setLaw v s).cmd = s.cmd := rfl
@[simp] theorem setLaw_rspReady (v : BitVec 1) (s : State) : (setLaw v s).rspReady = s.rspReady := rfl
@[simp] theorem setLaw_txRoom (v : BitVec 1) (s : State) : (setLaw v s).txRoom = s.txRoom := rfl
@[simp] theorem setLaw_txr (v : BitVec 1) (s : State) : (setLaw v s).txr = s.txr := rfl
@[simp] theorem setLaw_rspTaken (v : BitVec 1) (s : State) : (setLaw v s).rspTaken = s.rspTaken := rfl
@[simp] theorem setLaw_tx (v : BitVec 1) (s : State) : (setLaw v s).tx = s.tx := rfl

/-! ### `respond` -/

@[simp] theorem respond_cfg (st : Status) (d : BitVec 24) (s : State) : (respond st d s).cfg = s.cfg := rfl
@[simp] theorem respond_ledCount (st : Status) (d : BitVec 24) (s : State) : (respond st d s).ledCount = s.ledCount := rfl
@[simp] theorem respond_totalPkts (st : Status) (d : BitVec 24) (s : State) : (respond st d s).totalPkts = s.totalPkts := rfl
@[simp] theorem respond_bright (st : Status) (d : BitVec 24) (s : State) : (respond st d s).bright = s.bright := rfl
@[simp] theorem respond_law (st : Status) (d : BitVec 24) (s : State) : (respond st d s).law = s.law := rfl
@[simp] theorem respond_fb (st : Status) (d : BitVec 24) (s : State) : (respond st d s).fb = s.fb := rfl
@[simp] theorem respond_upload (st : Status) (d : BitVec 24) (s : State) : (respond st d s).upload = s.upload := rfl
@[simp] theorem respond_rsp (st : Status) (d : BitVec 24) (s : State) : (respond st d s).rsp = some (responseWord st d) := rfl
@[simp] theorem respond_rst (st : Status) (d : BitVec 24) (s : State) : (respond st d s).rst = s.rst := rfl
@[simp] theorem respond_cmd (st : Status) (d : BitVec 24) (s : State) : (respond st d s).cmd = s.cmd := rfl
@[simp] theorem respond_rspReady (st : Status) (d : BitVec 24) (s : State) : (respond st d s).rspReady = s.rspReady := rfl
@[simp] theorem respond_txRoom (st : Status) (d : BitVec 24) (s : State) : (respond st d s).txRoom = s.txRoom := rfl
@[simp] theorem respond_txr (st : Status) (d : BitVec 24) (s : State) : (respond st d s).txr = s.txr := rfl
@[simp] theorem respond_rspTaken (st : Status) (d : BitVec 24) (s : State) : (respond st d s).rspTaken = s.rspTaken := rfl
@[simp] theorem respond_tx (st : Status) (d : BitVec 24) (s : State) : (respond st d s).tx = s.tx := rfl

/-! ### `raise` -/

@[simp] theorem raise_cfg (st : Status) (s : State) : (raise st s).cfg = s.cfg := rfl
@[simp] theorem raise_ledCount (st : Status) (s : State) : (raise st s).ledCount = s.ledCount := rfl
@[simp] theorem raise_totalPkts (st : Status) (s : State) : (raise st s).totalPkts = s.totalPkts := rfl
@[simp] theorem raise_bright (st : Status) (s : State) : (raise st s).bright = s.bright := rfl
@[simp] theorem raise_law (st : Status) (s : State) : (raise st s).law = s.law := rfl
@[simp] theorem raise_fb (st : Status) (s : State) : (raise st s).fb = s.fb := rfl
@[simp] theorem raise_upload (st : Status) (s : State) : (raise st s).upload = s.upload := rfl
@[simp] theorem raise_rsp (st : Status) (s : State) : (raise st s).rsp = some (responseWord st 0#24) := rfl
@[simp] theorem raise_rst (st : Status) (s : State) : (raise st s).rst = s.rst := rfl
@[simp] theorem raise_cmd (st : Status) (s : State) : (raise st s).cmd = s.cmd := rfl
@[simp] theorem raise_rspReady (st : Status) (s : State) : (raise st s).rspReady = s.rspReady := rfl
@[simp] theorem raise_txRoom (st : Status) (s : State) : (raise st s).txRoom = s.txRoom := rfl
@[simp] theorem raise_txr (st : Status) (s : State) : (raise st s).txr = s.txr := rfl
@[simp] theorem raise_rspTaken (st : Status) (s : State) : (raise st s).rspTaken = s.rspTaken := rfl
@[simp] theorem raise_tx (st : Status) (s : State) : (raise st s).tx = s.tx := rfl

/-! ### `resetBlock` -/

@[simp] theorem resetBlock_cfg (s : State) : (resetBlock s).cfg = s.cfg := rfl
@[simp] theorem resetBlock_ledCount (s : State) : (resetBlock s).ledCount = 0#16 := rfl
@[simp] theorem resetBlock_totalPkts (s : State) : (resetBlock s).totalPkts = 0#8 := rfl
@[simp] theorem resetBlock_bright (s : State) : (resetBlock s).bright = s.cfg.brightnessInit := rfl
@[simp] theorem resetBlock_law (s : State) : (resetBlock s).law = s.cfg.lawInit := rfl
@[simp] theorem resetBlock_fb (s : State) : (resetBlock s).fb = [] := rfl
@[simp] theorem resetBlock_upload (s : State) : (resetBlock s).upload = none := rfl
@[simp] theorem resetBlock_rsp (s : State) : (resetBlock s).rsp = none := rfl
@[simp] theorem resetBlock_rst (s : State) : (resetBlock s).rst = s.rst := rfl
@[simp] theorem resetBlock_cmd (s : State) : (resetBlock s).cmd = s.cmd := rfl
@[simp] theorem resetBlock_rspReady (s : State) : (resetBlock s).rspReady = s.rspReady := rfl
@[simp] theorem resetBlock_txRoom (s : State) : (resetBlock s).txRoom = s.txRoom := rfl
@[simp] theorem resetBlock_txr (s : State) : (resetBlock s).txr = [] := rfl
@[simp] theorem resetBlock_rspTaken (s : State) : (resetBlock s).rspTaken = s.rspTaken := rfl
@[simp] theorem resetBlock_tx (s : State) : (resetBlock s).tx = s.tx := rfl

/-! ### `handOver` -/

@[simp] theorem handOver_cfg (s : State) (u : Upload) : (handOver s u).cfg = s.cfg := rfl
@[simp] theorem handOver_ledCount (s : State) (u : Upload) : (handOver s u).ledCount = s.ledCount := rfl
@[simp] theorem handOver_totalPkts (s : State) (u : Upload) : (handOver s u).totalPkts = s.totalPkts := rfl
@[simp] theorem handOver_bright (s : State) (u : Upload) : (handOver s u).bright = s.bright := rfl
@[simp] theorem handOver_law (s : State) (u : Upload) : (handOver s u).law = s.law := rfl
@[simp] theorem handOver_fb (s : State) (u : Upload) : (handOver s u).fb = s.fb := rfl
@[simp] theorem handOver_upload (s : State) (u : Upload) : (handOver s u).upload = s.upload := rfl
@[simp] theorem handOver_rsp (s : State) (u : Upload) : (handOver s u).rsp = s.rsp := rfl
@[simp] theorem handOver_rst (s : State) (u : Upload) : (handOver s u).rst = s.rst := rfl
@[simp] theorem handOver_cmd (s : State) (u : Upload) : (handOver s u).cmd = s.cmd := rfl
@[simp] theorem handOver_rspReady (s : State) (u : Upload) : (handOver s u).rspReady = s.rspReady := rfl
@[simp] theorem handOver_txRoom (s : State) (u : Upload) : (handOver s u).txRoom = s.txRoom.map (fun r => r - beatsNow s u) := rfl
@[simp] theorem handOver_txr (s : State) (u : Upload) : (handOver s u).txr = s.txr := rfl
@[simp] theorem handOver_rspTaken (s : State) (u : Upload) : (handOver s u).rspTaken = s.rspTaken := rfl
@[simp] theorem handOver_tx (s : State) (u : Upload) : (handOver s u).tx = s.tx ++ ((packetBeats s u).drop u.pos).take (beatsNow s u) := rfl

/-! ### `endFrame` -/

@[simp] theorem endFrame_cfg (failed : Byte) (s : State) : (endFrame failed s).cfg = s.cfg := rfl
@[simp] theorem endFrame_ledCount (failed : Byte) (s : State) : (endFrame failed s).ledCount = s.ledCount := rfl
@[simp] theorem endFrame_totalPkts (failed : Byte) (s : State) : (endFrame failed s).totalPkts = s.totalPkts := rfl
@[simp] theorem endFrame_bright (failed : Byte) (s : State) : (endFrame failed s).bright = s.bright := rfl
@[simp] theorem endFrame_law (failed : Byte) (s : State) : (endFrame failed s).law = s.law := rfl
@[simp] theorem endFrame_fb (failed : Byte) (s : State) : (endFrame failed s).fb = s.fb := rfl
@[simp] theorem endFrame_upload (failed : Byte) (s : State) : (endFrame failed s).upload = none := rfl
@[simp] theorem endFrame_rsp (failed : Byte) (s : State) : (endFrame failed s).rsp = some (responseWord .ok (0x00#8 ++ s.totalPkts ++ failed)) := rfl
@[simp] theorem endFrame_rst (failed : Byte) (s : State) : (endFrame failed s).rst = s.rst := rfl
@[simp] theorem endFrame_cmd (failed : Byte) (s : State) : (endFrame failed s).cmd = s.cmd := rfl
@[simp] theorem endFrame_rspReady (failed : Byte) (s : State) : (endFrame failed s).rspReady = s.rspReady := rfl
@[simp] theorem endFrame_txRoom (failed : Byte) (s : State) : (endFrame failed s).txRoom = s.txRoom := rfl
@[simp] theorem endFrame_txr (failed : Byte) (s : State) : (endFrame failed s).txr = s.txr := rfl
@[simp] theorem endFrame_rspTaken (failed : Byte) (s : State) : (endFrame failed s).rspTaken = s.rspTaken := rfl
@[simp] theorem endFrame_tx (failed : Byte) (s : State) : (endFrame failed s).tx = s.tx := rfl

/-! ### `startPacket` -/

@[simp] theorem startPacket_seq (cfg : Config) (seq : Byte) (cur : Half) (failed : Byte) : (startPacket cfg seq cur failed).seq = seq := rfl
@[simp] theorem startPacket_cur (cfg : Config) (seq : Byte) (cur : Half) (failed : Byte) : (startPacket cfg seq cur failed).cur = cur := rfl
@[simp] theorem startPacket_n (cfg : Config) (seq : Byte) (cur : Half) (failed : Byte) : (startPacket cfg seq cur failed).n = 0#16 := rfl
@[simp] theorem startPacket_pkt (cfg : Config) (seq : Byte) (cur : Half) (failed : Byte) : (startPacket cfg seq cur failed).pkt = pktWrite (pktWrite [] 0 cfg.startMarker) 1 cfg.typeMarker := rfl
@[simp] theorem startPacket_failed (cfg : Config) (seq : Byte) (cur : Half) (failed : Byte) : (startPacket cfg seq cur failed).failed = failed := rfl
@[simp] theorem startPacket_pos (cfg : Config) (seq : Byte) (cur : Half) (failed : Byte) : (startPacket cfg seq cur failed).pos = 0 := rfl

/-! ### `putTriplet` -/

@[simp] theorem putTriplet_seq (p : Rgb) (u : Upload) : (putTriplet p u).seq = u.seq := rfl
@[simp] theorem putTriplet_cur (p : Rgb) (u : Upload) : (putTriplet p u).cur = u.cur + 1#16 := rfl
@[simp] theorem putTriplet_n (p : Rgb) (u : Upload) : (putTriplet p u).n = u.n + 3#16 := rfl
@[simp] theorem putTriplet_pkt (p : Rgb) (u : Upload) : (putTriplet p u).pkt = pktWrite (pktWrite (pktWrite u.pkt (6 + u.n.toNat) p.red) (6 + u.n.toNat + 1) p.green) (6 + u.n.toNat + 2) p.blue := rfl
@[simp] theorem putTriplet_failed (p : Rgb) (u : Upload) : (putTriplet p u).failed = u.failed := rfl
@[simp] theorem putTriplet_pos (p : Rgb) (u : Upload) : (putTriplet p u).pos = u.pos := rfl

/-! ### `finishPacket` -/

@[simp] theorem finishPacket_seq (s : State) (u : Upload) : (finishPacket s u).seq = u.seq := rfl
@[simp] theorem finishPacket_cur (s : State) (u : Upload) : (finishPacket s u).cur = u.cur := rfl
@[simp] theorem finishPacket_n (s : State) (u : Upload) : (finishPacket s u).n = u.n := rfl
theorem finishPacket_pkt (s : State) (u : Upload) : (finishPacket s u).pkt =
    pktWrite (pktWrite (pktWrite (pktWrite (pktWrite u.pkt 2 (u.n.extractLsb' 8 8)) 3 (u.n.extractLsb' 0 8)) 4 u.seq) 5
      s.totalPkts) (s.cfg.maxBytes - 1) s.cfg.endMarker := rfl
@[simp] theorem finishPacket_failed (s : State) (u : Upload) : (finishPacket s u).failed = u.failed := rfl
@[simp] theorem finishPacket_pos (s : State) (u : Upload) : (finishPacket s u).pos = u.pos := rfl

/-! ### `advance` -/

@[simp] theorem advance_seq (s : State) (u : Upload) : (advance s u).seq = u.seq := rfl
@[simp] theorem advance_cur (s : State) (u : Upload) : (advance s u).cur = u.cur := rfl
@[simp] theorem advance_n (s : State) (u : Upload) : (advance s u).n = u.n := rfl
@[simp] theorem advance_pkt (s : State) (u : Upload) : (advance s u).pkt = u.pkt := rfl
@[simp] theorem advance_failed (s : State) (u : Upload) : (advance s u).failed = u.failed := rfl
@[simp] theorem advance_pos (s : State) (u : Upload) : (advance s u).pos = u.pos + beatsNow s u := rfl

end Sys2Proof.Machine
end

