-- ==== Sys2Proof/Laws/Memory.lean ====
section
/-! SUPPORT. What the memory operations do: reading after writing, and the canonical form. -/

namespace Sys2Proof.Machine

/-! ### Reading -/

theorem lookup_append {α : Type} (m m' : Memory α) (a : Nat) :
    Memory.lookup (m ++ m') a = (Memory.lookup m a).or (Memory.lookup m' a) := by
  induction m with
  | nil => simp [Memory.lookup]
  | cons c m ih =>
    obtain ⟨k, v⟩ := c
    by_cases h : k = a <;> simp [Memory.lookup, h, ih]

theorem lookup_filter {α : Type} (p : Nat → Bool) (m : Memory α) (a : Nat) :
    Memory.lookup (m.filter (fun c => p c.1)) a = if p a then Memory.lookup m a else none := by
  induction m with
  | nil => simp [Memory.lookup]
  | cons c m ih =>
    obtain ⟨k, v⟩ := c
    by_cases hp : p k = true <;> by_cases h : k = a <;> simp_all [Memory.lookup]

theorem lookup_map_range' {α : Type} (f : Nat → α) (n lo a : Nat) :
    Memory.lookup ((List.range' lo n).map (fun i => (i, f i))) a =
      if lo ≤ a ∧ a < lo + n then some (f a) else none := by
  induction n generalizing lo with
  | zero => rw [if_neg (by omega)]; rfl
  | succ n ih =>
    rw [List.range'_succ, List.map_cons, Memory.lookup, ih]
    by_cases h : lo = a
    · subst h; simp
    · rw [if_neg h]; congr 1; exact propext (by omega)

/-- The cells of a span. -/
theorem lookup_span {α : Type} (lo hi : Nat) (f : Nat → α) (a : Nat) :
    Memory.lookup (Memory.span lo hi f) a = if lo ≤ a ∧ a < hi then some (f a) else none := by
  rw [Memory.span, lookup_map_range']
  congr 1
  exact propext (by omega)

/-- Read after write, at every address. -/
@[simp] theorem lookup_setRange {α : Type} (m : Memory α) (lo hi : Nat) (f : Nat → α) (a : Nat) :
    Memory.lookup (m.setRange lo hi f) a = if lo ≤ a ∧ a < hi then some (f a) else Memory.lookup m a := by
  rw [Memory.setRange, lookup_append, lookup_append, lookup_span,
    lookup_filter (fun k => decide (k < lo)), lookup_filter (fun k => decide (max lo hi ≤ k))]
  by_cases h1 : a < lo
  · have : ¬ max lo hi ≤ a := by omega
    simp only [h1, this, decide_true, decide_false, if_true, Bool.false_eq_true, if_false]
    rw [if_neg (by omega), if_neg (by omega)]
    cases Memory.lookup m a <;> rfl
  · by_cases h2 : a < hi
    · rw [if_pos (show lo ≤ a ∧ a < hi by omega), if_pos (show lo ≤ a ∧ a < hi by omega)]; simp [h1]
    · have : max lo hi ≤ a := by omega
      rw [if_neg (show ¬ (lo ≤ a ∧ a < hi) by omega), if_neg (show ¬ (lo ≤ a ∧ a < hi) by omega)]
      simp only [h1, this, decide_true, decide_false, if_true, Bool.false_eq_true, if_false]
      cases Memory.lookup m a <;> rfl

/-- Forgetting the high addresses leaves the low ones. -/
@[simp] theorem lookup_keepBelow {α : Type} (m : Memory α) (n a : Nat) :
    Memory.lookup (m.keepBelow n) a = if a < n then Memory.lookup m a else none := by
  rw [Memory.keepBelow, lookup_filter (fun k => decide (k < n))]
  simp

@[simp] theorem lookup_nil {α : Type} (a : Nat) : Memory.lookup ([] : Memory α) a = none := rfl

/-! ### The canonical form -/

theorem wf_nil {α : Type} : Memory.wf ([] : Memory α) := List.Pairwise.nil

theorem filter_wf {α : Type} (p : Nat × α → Bool) {m : Memory α} (h : Memory.wf m) : Memory.wf (m.filter p) :=
  List.Pairwise.filter p h

theorem keepBelow_wf {α : Type} {m : Memory α} (n : Nat) (h : Memory.wf m) : Memory.wf (m.keepBelow n) :=
  filter_wf _ h

theorem span_wf {α : Type} (lo hi : Nat) (f : Nat → α) : Memory.wf (Memory.span lo hi f) := by
  unfold Memory.wf Memory.span
  rw [List.pairwise_map]
  exact List.pairwise_lt_range'

theorem mem_span {α : Type} {lo hi : Nat} {f : Nat → α} {c : Nat × α} (h : c ∈ Memory.span lo hi f) :
    lo ≤ c.1 ∧ c.1 < hi ∧ c.2 = f c.1 := by
  simp only [Memory.span, List.mem_map, List.mem_range'_1] at h
  obtain ⟨i, hi', rfl⟩ := h
  exact ⟨hi'.1, by omega, rfl⟩

/-- Every write keeps the canonical form. -/
theorem setRange_wf {α : Type} {m : Memory α} (lo hi : Nat) (f : Nat → α) (h : Memory.wf m) :
    Memory.wf (m.setRange lo hi f) := by
  unfold Memory.wf Memory.setRange
  rw [List.pairwise_append, List.pairwise_append]
  refine ⟨⟨filter_wf _ h, span_wf _ _ _, ?_⟩, filter_wf _ h, ?_⟩
  · intro x hx y hy
    simp only [List.mem_filter, decide_eq_true_eq] at hx
    have := mem_span hy
    omega
  · intro x hx y hy
    simp only [List.mem_filter, decide_eq_true_eq] at hy
    rcases List.mem_append.mp hx with hx | hx
    · simp only [List.mem_filter, decide_eq_true_eq] at hx; omega
    · have := mem_span hx; omega

theorem mem_setRange {α : Type} {m : Memory α} {lo hi : Nat} {f : Nat → α} {c : Nat × α}
    (h : c ∈ m.setRange lo hi f) : c ∈ m ∨ (lo ≤ c.1 ∧ c.1 < hi ∧ c.2 = f c.1) := by
  simp only [Memory.setRange, List.mem_append, List.mem_filter] at h
  rcases h with (h | h) | h
  · exact .inl h.1
  · exact .inr (mem_span h)
  · exact .inl h.1

/-! ### The FrameBuffer -/

@[simp] theorem readEntry_writeEntries (lo hi : Nat) (f : Nat → Hsv) (s : State) (i : Nat) :
    readEntry (writeEntries lo hi f s) i = if lo ≤ i ∧ i < hi then some (f i) else readEntry s i := by
  simp [readEntry]

@[simp] theorem readEntry_setCount (n : Half) (s : State) (i : Nat) :
    readEntry (setCount n s) i = if i < n.toNat then readEntry s i else none := by
  simp [readEntry]

@[simp] theorem readEntry_respond (st : Status) (d : BitVec 24) (s : State) (i : Nat) :
    readEntry (respond st d s) i = readEntry s i := rfl

@[simp] theorem readEntry_raise (st : Status) (s : State) (i : Nat) : readEntry (raise st s) i = readEntry s i := rfl

@[simp] theorem readEntry_setBright (v : Byte) (s : State) (i : Nat) :
    readEntry (setBright v s) i = readEntry s i := rfl

@[simp] theorem readEntry_setLaw (v : BitVec 1) (s : State) (i : Nat) : readEntry (setLaw v s) i = readEntry s i := rfl

@[simp] theorem readEntry_handOver (s : State) (u : Upload) (i : Nat) :
    readEntry (handOver s u) i = readEntry s i := rfl

@[simp] theorem readEntry_endFrame (failed : Byte) (s : State) (i : Nat) :
    readEntry (endFrame failed s) i = readEntry s i := rfl

@[simp] theorem readEntry_resetBlock (s : State) (i : Nat) : readEntry (resetBlock s) i = none := rfl

/-! ### The packet space -/

@[simp] theorem pktRead_nil (k : Nat) : pktRead [] k = 0#8 := rfl

/-- Read after write in the packet space. -/
@[simp] theorem pktRead_pktWrite (p : List Host.Cell) (k a : Nat) (v : Byte) :
    pktRead (pktWrite p k v) a = if a = k then v else pktRead p a := by
  unfold pktRead pktWrite
  by_cases hv : v = 0#8
  · rw [if_pos hv, lookup_filter (fun i => decide (i ≠ k))]
    by_cases ha : a = k <;> simp [ha, hv]
  · rw [if_neg hv, lookup_setRange]
    by_cases ha : a = k
    · simp [ha]
    · rw [if_neg (by omega), if_neg ha]

theorem pktWf_nil : pktWf [] := ⟨wf_nil, by simp⟩

/-- Every packet write keeps the canonical form. -/
theorem pktWrite_wf {p : List Host.Cell} (k : Nat) (v : Byte) (h : pktWf p) : pktWf (pktWrite p k v) := by
  unfold pktWrite
  by_cases hv : v = 0#8
  · rw [if_pos hv]
    exact ⟨filter_wf _ h.1, fun c hc => h.2 c (List.mem_filter.mp hc).1⟩
  · rw [if_neg hv]
    refine ⟨setRange_wf _ _ _ h.1, fun c hc => ?_⟩
    rcases mem_setRange hc with hc | hc
    · exact h.2 c hc
    · rw [hc.2.2]; exact hv

/-- A packet write touches no other offset. -/
theorem pktWrite_bound {p : List Host.Cell} {k b : Nat} {v : Byte} (h : ∀ c ∈ p, c.1 < b) (hk : k < b) :
    ∀ c ∈ pktWrite p k v, c.1 < b := by
  intro c hc
  unfold pktWrite at hc
  split at hc
  · exact h c (List.mem_filter.mp hc).1
  · rcases mem_setRange hc with hc | hc
    · exact h c hc
    · omega

end Sys2Proof.Machine
end

