-- ==== Sys2Proof/Laws/Packet.lean ====
section
/-! SUPPORT. What building and sending one packet does (43_packetizer.md R211 to R215, R220 to R224). -/

namespace Sys2Proof.Machine

/-! ### Building a packet -/

theorem pixel_isSome (s : State) (i : Nat) : (pixel s i).isSome = (readEntry s i).isSome := by
  simp [pixel]

/-- The exit test of the fill loop: three more bytes fit exactly when one more triplet does. -/
theorem fill_test {c : Config} (h : c.WellFormed) (j : Nat) : 3 * j ≤ c.fillLimit ↔ j < c.ledsPerPacket := by
  obtain ⟨⟨h1, _⟩, _⟩ := h
  unfold Config.fillLimit Config.ledsPerPacket Config.payloadCap overhead
  omega

theorem triplets_fit {c : Config} (h : c.WellFormed) :
    1 ≤ c.ledsPerPacket ∧ 7 + 3 * c.ledsPerPacket ≤ c.maxBytes ∧ 3 * c.ledsPerPacket ≤ 65535 := by
  obtain ⟨⟨h1, h2⟩, _⟩ := h
  unfold Config.ledsPerPacket Config.payloadCap overhead
  omega

/-- One turn of the fill loop writes one triplet and leaves the other bytes. -/
theorem pktRead_putTriplet (p : Rgb) (u : Upload) (off : Nat) :
    pktRead (putTriplet p u).pkt off =
      if 6 + u.n.toNat ≤ off ∧ off < 6 + u.n.toNat + 3 then channel p (off - (6 + u.n.toNat))
      else pktRead u.pkt off := by
  simp only [putTriplet_pkt, pktRead_pktWrite, channel]
  by_cases h2 : off = 6 + u.n.toNat + 2
  · rw [if_pos h2, if_pos (by omega), if_neg (by omega), if_neg (by omega)]
  · by_cases h1 : off = 6 + u.n.toNat + 1
    · rw [if_neg h2, if_pos h1, if_pos (by omega), if_neg (by omega), if_pos (by omega)]
    · by_cases h0 : off = 6 + u.n.toNat
      · rw [if_neg h2, if_neg h1, if_pos h0, if_pos (by omega), if_pos (by omega)]
      · rw [if_neg h2, if_neg h1, if_neg h0, if_neg (by omega)]

/-- What the fill loop leaves, `j` triplets being in the packet already: `r` more triplets, as many as fit and are
left. -/
structure Filled (s : State) (u : Upload) (j r : Nat) (u' : Upload) : Prop where
  seq : u'.seq = u.seq
  failed : u'.failed = u.failed
  pos : u'.pos = u.pos
  cur : u'.cur.toNat = u.cur.toNat + r
  n : u'.n.toNat = 3 * (j + r)
  bytes : ∀ off, pktRead u'.pkt off =
    if 6 + 3 * j ≤ off ∧ off < 6 + 3 * (j + r) then
      channel (pixelOrBlack s (u.cur.toNat + (off - (6 + 3 * j)) / 3)) ((off - (6 + 3 * j)) % 3)
    else pktRead u.pkt off
  wf : pktWf u.pkt → pktWf u'.pkt
  bound : (∀ c ∈ u.pkt, c.1 < s.cfg.maxBytes) → ∀ c ∈ u'.pkt, c.1 < s.cfg.maxBytes

theorem filled_refl (s : State) (u : Upload) (j : Nat) (hn : u.n.toNat = 3 * j) : Filled s u j 0 u where
  seq := rfl
  failed := rfl
  pos := rfl
  cur := rfl
  n := by omega
  bytes := fun off => by rw [if_neg (by omega)]
  wf := id
  bound := id

theorem filled_step {s : State} {u u' : Upload} {j r : Nat} {p : Rgb} (hw : s.cfg.WellFormed)
    (hp : pixel s u.cur.toNat = some p) (hn : u.n.toNat = 3 * j) (hj : j < s.cfg.ledsPerPacket)
    (hc : u.cur.toNat < s.ledCount.toNat) (h : Filled s (putTriplet p u) (j + 1) r u') :
    Filled s u j (r + 1) u' where
  seq := h.seq
  failed := h.failed
  pos := h.pos
  cur := by
    have := s.ledCount.isLt
    rw [h.cur]; simp only [putTriplet_cur, BitVec.toNat_add, BitVec.toNat_ofNat]; omega
  n := by rw [h.n]; omega
  bytes := fun off => by
    have hcur : (putTriplet p u).cur.toNat = u.cur.toNat + 1 := by
      have := s.ledCount.isLt
      simp only [putTriplet_cur, BitVec.toNat_add, BitVec.toNat_ofNat]; omega
    rw [h.bytes, hcur, pktRead_putTriplet, hn]
    by_cases h1 : 6 + 3 * (j + 1) ≤ off ∧ off < 6 + 3 * (j + 1 + r)
    · rw [if_pos h1, if_pos (by omega)]
      congr 1
      · congr 1; omega
      · omega
    · rw [if_neg h1]
      by_cases h2 : 6 + 3 * j ≤ off ∧ off < 6 + 3 * j + 3
      · rw [if_pos h2, if_pos (by omega)]
        have hb : pixelOrBlack s (u.cur.toNat + (off - (6 + 3 * j)) / 3) = p := by
          rw [show u.cur.toNat + (off - (6 + 3 * j)) / 3 = u.cur.toNat by omega, pixelOrBlack, hp]; rfl
        rw [hb]
        congr 1
        omega
      · rw [if_neg h2, if_neg (by omega)]
  wf := fun hu => h.wf (pktWrite_wf _ _ (pktWrite_wf _ _ (pktWrite_wf _ _ hu)))
  bound := fun hu => by
    have ⟨_, hfit, _⟩ := triplets_fit hw
    exact h.bound (pktWrite_bound (pktWrite_bound (pktWrite_bound hu (by omega)) (by omega)) (by omega))

/-- The fill loop (R212), once and for all: it stops when no triplet fits or no LED is left. -/
theorem fillLoop_spec {s : State} (hw : s.cfg.WellFormed) (fuel : Nat) (u : Upload) (j : Nat)
    (hf : fuel = s.ledCount.toNat - u.cur.toNat) (hn : u.n.toNat = 3 * j) (hj : j ≤ s.cfg.ledsPerPacket)
    (hr : ∀ i, u.cur.toNat ≤ i → i < u.cur.toNat + min (s.cfg.ledsPerPacket - j) (s.ledCount.toNat - u.cur.toNat) →
      (readEntry s i).isSome = true) :
    ∃ u', fillLoop s fuel u = some u' ∧
      Filled s u j (min (s.cfg.ledsPerPacket - j) (s.ledCount.toNat - u.cur.toNat)) u' := by
  induction fuel generalizing u j with
  | zero =>
    refine ⟨u, rfl, ?_⟩
    rw [show min (s.cfg.ledsPerPacket - j) (s.ledCount.toNat - u.cur.toNat) = 0 by omega]
    exact filled_refl s u j hn
  | succ k ih =>
    have hc : u.cur.toNat < s.ledCount.toNat := by omega
    unfold fillLoop
    by_cases hjp : j < s.cfg.ledsPerPacket
    · rw [if_pos ⟨by rw [hn]; exact (fill_test hw j).mpr hjp, hc⟩]
      have hsome := hr u.cur.toNat (le_refl _) (by omega)
      rw [← pixel_isSome] at hsome
      obtain ⟨p, hp⟩ := Option.isSome_iff_exists.mp hsome
      have ⟨_, _, hfit⟩ := triplets_fit hw
      have hcur : (putTriplet p u).cur.toNat = u.cur.toNat + 1 := by
        have := s.ledCount.isLt
        simp only [putTriplet_cur, BitVec.toNat_add, BitVec.toNat_ofNat]; omega
      have hn' : (putTriplet p u).n.toNat = 3 * (j + 1) := by
        simp only [putTriplet_n, BitVec.toNat_add, BitVec.toNat_ofNat]; omega
      obtain ⟨u', he, hfill⟩ := ih (putTriplet p u) (j + 1) (by omega) hn' (by omega)
        (fun i h1 h2 => hr i (by omega) (by rw [hcur] at h1 h2; omega))
      refine ⟨u', by rw [hp]; exact he, ?_⟩
      have := filled_step hw hp hn hjp hc hfill
      rwa [hcur, show min (s.cfg.ledsPerPacket - (j + 1)) (s.ledCount.toNat - (u.cur.toNat + 1)) + 1 =
        min (s.cfg.ledsPerPacket - j) (s.ledCount.toNat - u.cur.toNat) by omega] at this
    · rw [if_neg (fun h => hjp ((fill_test hw j).mp (hn ▸ h.1)))]
      refine ⟨u, rfl, ?_⟩
      rw [show min (s.cfg.ledsPerPacket - j) (s.ledCount.toNat - u.cur.toNat) = 0 by omega]
      exact filled_refl s u j hn

/-- The bytes of a fresh packet (R211). -/
theorem pktRead_startPacket (cfg : Config) (seq : Byte) (cur : Half) (failed : Byte) (off : Nat) :
    pktRead (startPacket cfg seq cur failed).pkt off =
      if off = 1 then cfg.typeMarker else if off = 0 then cfg.startMarker else 0#8 := by
  simp [startPacket]

/-- The bytes `finishPacket` writes (R214). -/
theorem pktRead_finishPacket (s : State) (u : Upload) (off : Nat) :
    pktRead (finishPacket s u).pkt off =
      if off = s.cfg.maxBytes - 1 then s.cfg.endMarker
      else if off = 5 then s.totalPkts
      else if off = 4 then u.seq
      else if off = 3 then u.n.extractLsb' 0 8
      else if off = 2 then u.n.extractLsb' 8 8
      else pktRead u.pkt off := by
  simp [finishPacket]

/-- What is known of a packet that has been built and of which the Transport has taken nothing. -/
structure Built (s : State) (k : Nat) (failed : Byte) (u : Upload) : Prop where
  seq : u.seq.toNat = k
  failedEq : u.failed = failed
  pos : u.pos = 0
  cur : u.cur.toNat = min s.ledCount.toNat (k * s.cfg.ledsPerPacket)
  n : u.n.toNat = 3 * tripletCount s.cfg s.ledCount.toNat k
  wf : pktWf u.pkt
  bound : ∀ c ∈ u.pkt, c.1 < s.cfg.maxBytes
  bytes : ∀ off, off < s.cfg.maxBytes → pktRead u.pkt off = packetByte s k off

/-- Building packet `k` from where packet `k - 1` left the cursor gives the packet of the closed form (R215). -/
theorem buildPacket_spec {s : State} (hw : s.cfg.WellFormed) {seq failed : Byte} {cur : Half}
    (hs : 1 ≤ seq.toNat) (hc : cur.toNat = min s.ledCount.toNat ((seq.toNat - 1) * s.cfg.ledsPerPacket))
    (hr : ∀ i, i < min s.ledCount.toNat (seq.toNat * s.cfg.ledsPerPacket) → (readEntry s i).isSome = true) :
    ∃ u, buildPacket s seq cur failed = some u ∧ Built s seq.toNat failed u := by
  obtain ⟨k, hk⟩ : ∃ k, seq.toNat = k + 1 := ⟨seq.toNat - 1, by omega⟩
  have hkp : (k + 1) * s.cfg.ledsPerPacket = k * s.cfg.ledsPerPacket + s.cfg.ledsPerPacket := by ring
  rw [hk] at hc hr ⊢
  rw [hkp] at hr
  simp only [Nat.add_sub_cancel] at hc
  have hfit := triplets_fit hw
  obtain ⟨u, he, hf⟩ := fillLoop_spec hw (s.ledCount.toNat - cur.toNat) (startPacket s.cfg seq cur failed) 0 rfl
    (by simp) (by omega) (fun i h1 h2 => hr i (by simp only [startPacket_cur] at h1 h2; omega))
  have hm : min (s.cfg.ledsPerPacket - 0) (s.ledCount.toNat - (startPacket s.cfg seq cur failed).cur.toNat) =
      tripletCount s.cfg s.ledCount.toNat (k + 1) := by
    simp only [startPacket_cur, tripletCount, Nat.add_sub_cancel]; omega
  rw [hm] at hf
  have hmle : tripletCount s.cfg s.ledCount.toNat (k + 1) ≤ s.cfg.ledsPerPacket := by
    simp only [tripletCount]; omega
  have hn : u.n.toNat = 3 * tripletCount s.cfg s.ledCount.toNat (k + 1) := by rw [hf.n]; omega
  refine ⟨finishPacket s u, by rw [buildPacket, he]; rfl, ?_⟩
  have hwf : pktWf u.pkt := by
    apply hf.wf
    rw [startPacket_pkt]
    exact pktWrite_wf _ _ (pktWrite_wf _ _ pktWf_nil)
  have hbd : ∀ c ∈ u.pkt, c.1 < s.cfg.maxBytes := by
    apply hf.bound
    rw [startPacket_pkt]
    exact pktWrite_bound (pktWrite_bound (b := s.cfg.maxBytes) (by simp) (by omega)) (by omega)
  refine ⟨?_, hf.failed, hf.pos, ?_, hn, ?_, ?_, ?_⟩
  · rw [finishPacket_seq, hf.seq]; exact hk
  · rw [finishPacket_cur, hf.cur, hkp]
    simp only [startPacket_cur, tripletCount, Nat.add_sub_cancel]; omega
  · rw [finishPacket_pkt]
    exact pktWrite_wf _ _ (pktWrite_wf _ _ (pktWrite_wf _ _ (pktWrite_wf _ _ (pktWrite_wf _ _ hwf))))
  · rw [finishPacket_pkt]
    iterate 4 refine pktWrite_bound ?_ (by omega)
    exact pktWrite_bound hbd (by omega)
  · intro off hoff
    rw [pktRead_finishPacket, hf.bytes, pktRead_startPacket]
    simp only [packetByte, startPacket_cur, Nat.add_sub_cancel]
    have h8 : ∀ x : Half, x.extractLsb' 8 8 = BitVec.ofNat 8 (x.toNat / 256) := by
      intro x; apply BitVec.eq_of_toNat_eq; simp [Nat.shiftRight_eq_div_pow]
    have h0 : ∀ x : Half, x.extractLsb' 0 8 = BitVec.ofNat 8 x.toNat := by
      intro x; apply BitVec.eq_of_toNat_eq; simp
    have hseq : u.seq = BitVec.ofNat 8 (k + 1) := by
      rw [hf.seq, startPacket_seq, ← hk]; simp
    rw [h8, h0, hn, hseq]
    by_cases e0 : off = 0
    · subst e0
      rw [if_neg (by omega), if_neg (by omega), if_neg (by omega), if_neg (by omega), if_neg (by omega),
        if_neg (by omega)]
      rfl
    by_cases e1 : off = 1
    · subst e1
      rw [if_neg (by omega), if_neg (by omega), if_neg (by omega), if_neg (by omega), if_neg (by omega),
        if_neg (by omega)]
      rfl
    by_cases e2 : off = 2
    · subst e2; rw [if_neg (by omega)]; simp
    by_cases e3 : off = 3
    · subst e3; rw [if_neg (by omega)]; simp
    by_cases e4 : off = 4
    · subst e4; rw [if_neg (by omega)]; simp
    by_cases e5 : off = 5
    · subst e5; rw [if_neg (by omega)]; simp
    by_cases eM : off + 1 = s.cfg.maxBytes
    · rw [if_pos (by omega)]; simp [e0, e1, e2, e3, e4, e5, eM]
    rw [if_neg (by omega), if_neg e5, if_neg e4, if_neg e3, if_neg e2, if_neg e1, if_neg e0, if_neg e0, if_neg e1,
      if_neg e2, if_neg e3, if_neg e4, if_neg e5, if_neg eM]
    by_cases eP : off < 6 + 3 * tripletCount s.cfg s.ledCount.toNat (k + 1)
    · rw [if_pos (by omega), if_pos eP]
      have hcur : cur.toNat = k * s.cfg.ledsPerPacket := by
        simp only [tripletCount, Nat.add_sub_cancel] at eP; omega
      rw [hcur]
    · rw [if_neg (by omega), if_neg eP]

theorem fillLoop_lines (s : State) (up : Option Upload) (room : Option Nat) (xs : List SendResult) (sent : List Beat)
    (k : Nat) (u : Upload) :
    fillLoop { s with upload := up, txRoom := room, txr := xs, tx := sent } k u = fillLoop s k u := by
  induction k generalizing u with
  | zero => rfl
  | succ k ih => unfold fillLoop; simp only [ih]; rfl

/-- Building a packet does not look at the lines of the Transport or at the packet under way. -/
theorem buildPacket_lines (s : State) (up : Option Upload) (room : Option Nat) (xs : List SendResult)
    (sent : List Beat) (seq : Byte) (cur : Half) (failed : Byte) :
    buildPacket { s with upload := up, txRoom := room, txr := xs, tx := sent } seq cur failed =
      buildPacket s seq cur failed := by
  unfold buildPacket; rw [fillLoop_lines]; rfl

/-! ### Sending a packet -/

/-- The beats of a packet that was built are those of the closed form. -/
theorem packetBeats_eq {s : State} {u : Upload} {k : Nat} (hk : u.seq.toNat = k)
    (hb : ∀ off, off < s.cfg.maxBytes → pktRead u.pkt off = packetByte s k off) : packetBeats s u = packetOf s k := by
  unfold packetBeats packetOf
  apply List.map_congr_left
  intro off hoff
  rw [hb off (List.mem_range.mp hoff)]
  have h1 : (u.seq = 1#8) = (k = 1) := by rw [← BitVec.toNat_inj, hk]; simp
  have h2 : (u.seq = s.totalPkts) = (k = s.totalPkts.toNat) := by rw [← BitVec.toNat_inj, hk]
  simp only [h1, h2]

@[simp] theorem packetOf_length (s : State) (k : Nat) : (packetOf s k).length = s.cfg.maxBytes := by
  simp [packetOf]

/-- A frame with a packet is what is left of it when nothing has been taken. -/
theorem frameOf_eq_restOfFrame {s : State} (h : 0 < s.totalPkts.toNat) : frameOf s = restOfFrame s 1 0 := by
  obtain ⟨k, hk⟩ : ∃ k, s.totalPkts.toNat = k + 1 := ⟨_, (Nat.sub_add_cancel h).symm⟩
  simp [frameOf, restOfFrame, hk, List.range'_succ]

@[simp] theorem packetBeats_length (s : State) (u : Upload) : (packetBeats s u).length = s.cfg.maxBytes := by
  simp [packetBeats]

theorem beatsNow_le (s : State) (u : Upload) : beatsNow s u ≤ s.cfg.maxBytes - u.pos := by
  unfold beatsNow takeable
  split <;> omega

theorem advance_pos_le (s : State) {u : Upload} (h : u.pos ≤ s.cfg.maxBytes) :
    (advance s u).pos ≤ s.cfg.maxBytes := by
  have := beatsNow_le s u
  simp only [advance_pos]
  omega

/-- With no stall, all that is left of the packet goes at once. -/
theorem beatsNow_of_room {s : State} (h : s.txRoom = none) (u : Upload) :
    beatsNow s u = s.cfg.maxBytes - u.pos := by
  simp [beatsNow, takeable, h]

/-- All that one send can do: it waits with the packet advanced, or it returns after a whole packet and consumes one
answer. -/
theorem sendPacket_cases (s : State) (u : Upload) :
    (sendPacket s u = .waiting { handOver s u with upload := some (advance s u) } ∧
      ((advance s u).pos < s.cfg.maxBytes ∨ s.txr = [])) ∨
    (∃ r rest, s.txr = r :: rest ∧ s.cfg.maxBytes ≤ (advance s u).pos ∧
      sendPacket s u = .returned { handOver s u with txr := rest } (countFailure r u.failed)) := by
  unfold sendPacket
  by_cases h : (advance s u).pos < s.cfg.maxBytes
  · exact .inl ⟨if_pos h, .inl h⟩
  · simp only [if_neg h]
    cases hr : s.txr with
    | nil => exact .inl ⟨by simp [hr], .inr rfl⟩
    | cons r rest => exact .inr ⟨r, rest, rfl, by omega, by simp [hr]⟩

/-- A send that meets no stall and finds an answer. -/
theorem sendPacket_returns {s : State} {u : Upload} {r : SendResult} {rest : List SendResult}
    (hroom : s.txRoom = none) (hpos : u.pos ≤ s.cfg.maxBytes) (hr : s.txr = r :: rest) :
    sendPacket s u = .returned
      { s with tx := s.tx ++ (packetBeats s u).drop u.pos, txr := rest } (countFailure r u.failed) := by
  have hb := beatsNow_of_room hroom u
  have hfull : ¬ (advance s u).pos < s.cfg.maxBytes := by simp only [advance_pos]; omega
  unfold sendPacket
  simp only [if_neg hfull, handOver_txr, hr]
  congr 1
  simp only [handOver, hroom, hb, Option.map_none]
  rw [List.take_of_length_le (by simp)]

/-- The last packet of a frame, sent without a stall and answered. -/
theorem frameLoop_zero_returns {s s1 : State} {u : Upload} {failed : Byte} (h : sendPacket s u = .returned s1 failed) :
    frameLoop 0 s u = .next (endFrame failed s1) := by
  rw [frameLoop, h]

/-- A packet with more to come, sent without a stall and answered. -/
theorem frameLoop_succ_returns {s s1 : State} {u u1 : Upload} {failed : Byte} {k : Nat}
    (h : sendPacket s u = .returned s1 failed) (hb : buildPacket s1 (u.seq + 1#8) u.cur failed = some u1) :
    frameLoop (k + 1) s u = frameLoop k s1 u1 := by
  rw [frameLoop, h]; simp only [hb]

/-- A packet the Transport has not answered, or not taken whole. -/
theorem frameLoop_waits {s s1 : State} {u : Upload} (k : Nat) (h : sendPacket s u = .waiting s1) :
    frameLoop k s u = .next s1 := by
  cases k <;> rw [frameLoop, h]

end Sys2Proof.Machine
end

