-- ==== Sys2Proof/Laws/PerInstr.lean ====
section
/-! SUPPORT. What holds of every command as syntax, one lemma per constructor of `Instr`. -/

namespace Sys2Proof.Laws

/-- The opcode field of the encoding selects a row of the table of 30_encoding.md R89, and the operands that row
assembles from the encoding (R86) are the operands of the command. -/
def RowAndOperands.Statement (i : Instr) : Prop :=
  ∃ row, lookupOp (fieldOp (encode i)) = some row ∧ assemble row.code (encode i) = i

theorem RowAndOperands.nop : RowAndOperands.Statement .nop := ⟨_, by rw [encode, fieldOp_packWord]; rfl, rfl⟩

theorem RowAndOperands.cvtrb (col : Hsv) : RowAndOperands.Statement (.cvtrb col) :=
  ⟨_, by rw [encode, fieldOp_packWord]; rfl, by simp [assemble, encode]⟩

theorem RowAndOperands.cvtsp (col : Hsv) : RowAndOperands.Statement (.cvtsp col) :=
  ⟨_, by rw [encode, fieldOp_packWord]; rfl, by simp [assemble, encode]⟩

theorem RowAndOperands.setup (count : Half) : RowAndOperands.Statement (.setup count) :=
  ⟨_, by rw [encode, fieldOp_packWord]; rfl, by simp [assemble, encode]⟩

theorem RowAndOperands.resize (count : Half) : RowAndOperands.Statement (.resize count) :=
  ⟨_, by rw [encode, fieldOp_packWord]; rfl, by simp [assemble, encode]⟩

theorem RowAndOperands.setled (index : Half) (col : Hsv) : RowAndOperands.Statement (.setled index col) :=
  ⟨_, by rw [encode, fieldOp_packWord]; rfl, by simp [assemble, encode]⟩

theorem RowAndOperands.getled (index : Half) : RowAndOperands.Statement (.getled index) :=
  ⟨_, by rw [encode, fieldOp_packWord]; rfl, by simp [assemble, encode]⟩

theorem RowAndOperands.fill (col : Hsv) : RowAndOperands.Statement (.fill col) :=
  ⟨_, by rw [encode, fieldOp_packWord]; rfl, by simp [assemble, encode]⟩

theorem RowAndOperands.fillr (start len : Half) (col : Hsv) : RowAndOperands.Statement (.fillr start len col) :=
  ⟨_, by rw [encode, fieldOp_packWord]; rfl, by simp [assemble, encode]⟩

theorem RowAndOperands.rainbow (b : Half) (col : Hsv) : RowAndOperands.Statement (.rainbow b col) :=
  ⟨_, by rw [encode, fieldOp_packWord]; rfl, by simp [assemble, encode]⟩

theorem RowAndOperands.rdctl (reg : Half) : RowAndOperands.Statement (.rdctl reg) :=
  ⟨_, by rw [encode, fieldOp_packWord]; rfl, by simp [assemble, encode]⟩

theorem RowAndOperands.wrctl (reg value : Half) : RowAndOperands.Statement (.wrctl reg value) :=
  ⟨_, by rw [encode, fieldOp_packWord]; rfl, by simp [assemble, encode]⟩

theorem RowAndOperands.upload : RowAndOperands.Statement .upload := ⟨_, by rw [encode, fieldOp_packWord]; rfl, rfl⟩

end Sys2Proof.Laws
end

