-- ==== Sys2Proof/Laws/Step.lean ====
section
/-! SUPPORT. What a step can do, said once (00_scope.md R5; 30_encoding.md R80 to R83), and what a command other than
`UPLOAD` can do to the state. -/

namespace Sys2Proof.Machine

/-! ### Serving the response channel -/

theorem deliver_of_none {s : State} (h : s.rsp = none) : deliver s = s := by
  simp [deliver, h]

theorem deliver_held {s : State} (h : s.rspReady = false) : deliver s = s := by
  unfold deliver; split <;> simp_all

theorem deliver_of_some {s : State} {r : RspWord} (h : s.rsp = some r) (hr : s.rspReady = true) :
    deliver s = { s with rsp := none, rspTaken := s.rspTaken ++ [r] } := by
  simp [deliver, h, hr]

/-- When the response channel is or becomes free, serving it gives the state a command is accepted in. -/
theorem deliver_of_free {s : State} (h : s.rsp = none ∨ s.rspReady = true) :
    deliver s = { s with rsp := none, rspTaken := s.rspTaken ++ s.rsp.toList } := by
  cases hr : s.rsp with
  | none => rw [deliver_of_none hr]; cases s; simp_all
  | some r => rw [deliver_of_some hr (h.resolve_left (by simp [hr]))]; simp

@[simp] theorem deliver_cfg (s : State) : (deliver s).cfg = s.cfg := by unfold deliver; split <;> (try split) <;> rfl
@[simp] theorem deliver_ledCount (s : State) : (deliver s).ledCount = s.ledCount := by
  unfold deliver; split <;> (try split) <;> rfl
@[simp] theorem deliver_totalPkts (s : State) : (deliver s).totalPkts = s.totalPkts := by
  unfold deliver; split <;> (try split) <;> rfl
@[simp] theorem deliver_bright (s : State) : (deliver s).bright = s.bright := by
  unfold deliver; split <;> (try split) <;> rfl
@[simp] theorem deliver_law (s : State) : (deliver s).law = s.law := by unfold deliver; split <;> (try split) <;> rfl
@[simp] theorem deliver_fb (s : State) : (deliver s).fb = s.fb := by unfold deliver; split <;> (try split) <;> rfl
@[simp] theorem deliver_upload (s : State) : (deliver s).upload = s.upload := by
  unfold deliver; split <;> (try split) <;> rfl
@[simp] theorem deliver_rst (s : State) : (deliver s).rst = s.rst := by unfold deliver; split <;> (try split) <;> rfl
@[simp] theorem deliver_cmd (s : State) : (deliver s).cmd = s.cmd := by unfold deliver; split <;> (try split) <;> rfl
@[simp] theorem deliver_rspReady (s : State) : (deliver s).rspReady = s.rspReady := by
  unfold deliver; split <;> (try split) <;> rfl
@[simp] theorem deliver_txRoom (s : State) : (deliver s).txRoom = s.txRoom := by
  unfold deliver; split <;> (try split) <;> rfl
@[simp] theorem deliver_txr (s : State) : (deliver s).txr = s.txr := by unfold deliver; split <;> (try split) <;> rfl
@[simp] theorem deliver_tx (s : State) : (deliver s).tx = s.tx := by unfold deliver; split <;> (try split) <;> rfl

/-! ### The accepted state -/

@[simp] theorem accepted_cfg (s : State) (rest : List CmdWord) : (accepted s rest).cfg = s.cfg := rfl
@[simp] theorem accepted_ledCount (s : State) (rest : List CmdWord) : (accepted s rest).ledCount = s.ledCount := rfl
@[simp] theorem accepted_totalPkts (s : State) (rest : List CmdWord) : (accepted s rest).totalPkts = s.totalPkts := rfl
@[simp] theorem accepted_bright (s : State) (rest : List CmdWord) : (accepted s rest).bright = s.bright := rfl
@[simp] theorem accepted_law (s : State) (rest : List CmdWord) : (accepted s rest).law = s.law := rfl
@[simp] theorem accepted_fb (s : State) (rest : List CmdWord) : (accepted s rest).fb = s.fb := rfl
@[simp] theorem accepted_upload (s : State) (rest : List CmdWord) : (accepted s rest).upload = s.upload := rfl
@[simp] theorem accepted_rst (s : State) (rest : List CmdWord) : (accepted s rest).rst = s.rst := rfl
@[simp] theorem accepted_rsp (s : State) (rest : List CmdWord) : (accepted s rest).rsp = none := rfl
@[simp] theorem accepted_cmd (s : State) (rest : List CmdWord) : (accepted s rest).cmd = rest := rfl
@[simp] theorem accepted_rspReady (s : State) (rest : List CmdWord) : (accepted s rest).rspReady = s.rspReady := rfl
@[simp] theorem accepted_txRoom (s : State) (rest : List CmdWord) : (accepted s rest).txRoom = s.txRoom := rfl
@[simp] theorem accepted_txr (s : State) (rest : List CmdWord) : (accepted s rest).txr = s.txr := rfl
@[simp] theorem accepted_tx (s : State) (rest : List CmdWord) : (accepted s rest).tx = s.tx := rfl
@[simp] theorem accepted_rspTaken (s : State) (rest : List CmdWord) :
    (accepted s rest).rspTaken = s.rspTaken ++ s.rsp.toList := rfl
@[simp] theorem readEntry_accepted (s : State) (rest : List CmdWord) (i : Nat) :
    readEntry (accepted s rest) i = readEntry s i := rfl

/-! ### One step -/

/-- A step that accepts a word runs it. -/
theorem step_accepting {s : State} {w : CmdWord} {rest : List CmdWord} (h : Accepting s w rest) :
    step s = runWord w (accepted s rest) := by
  have hd := deliver_of_free h.rspFree
  unfold step
  rw [if_pos h.cfgOk, h.resetLow, if_neg (by simp), act, hd]
  simp only [activity, h.noUpload, h.cmdIs, accepted]

/-- A step of a running `UPLOAD`. -/
theorem step_resuming {s : State} {u : Upload} (hc : s.cfg.WellFormed) (hr : s.rst = false) (hp : s.rsp = none)
    (hu : s.upload = some u) : step s = resumeUpload u s := by
  unfold step
  rw [if_pos hc, hr, if_neg (by simp), act, deliver_of_none hp]
  simp only [activity, hp, hu]

/-- Everything a step can do that answers a next state. -/
theorem step_cases {s t : State} (h : step s = .next t) :
    s.cfg.WellFormed ∧
    ((s.rst = true ∧ t = resetBlock s) ∨
     (s.rst = false ∧ s.rsp.isSome = true ∧ s.rspReady = false ∧ t = s) ∨
     (s.rst = false ∧ (s.rsp = none ∨ s.rspReady = true) ∧ ∃ u, s.upload = some u ∧
        resumeUpload u { s with rsp := none, rspTaken := s.rspTaken ++ s.rsp.toList } = .next t) ∨
     (s.rst = false ∧ (s.rsp = none ∨ s.rspReady = true) ∧ s.upload = none ∧ s.cmd = [] ∧
        t = { s with rsp := none, rspTaken := s.rspTaken ++ s.rsp.toList }) ∨
     (∃ w rest, Accepting s w rest ∧ runWord w (accepted s rest) = .next t)) := by
  unfold step at h
  by_cases hc : s.cfg.WellFormed
  · refine ⟨hc, ?_⟩
    rw [if_pos hc] at h
    by_cases hr : s.rst = true
    · rw [if_pos hr] at h; cases h; exact .inl ⟨hr, rfl⟩
    · rw [if_neg hr] at h
      rw [Bool.not_eq_true] at hr
      by_cases hf : s.rsp = none ∨ s.rspReady = true
      · have hd := deliver_of_free hf
        rw [act, hd] at h
        simp only [activity] at h
        cases hu : s.upload with
        | some u => simp only [hu] at h; exact .inr (.inr (.inl ⟨hr, hf, u, rfl, h⟩))
        | none =>
          cases hm : s.cmd with
          | nil =>
            simp only [hu, hm, Host.Outcome.next.injEq] at h
            exact .inr (.inr (.inr (.inl ⟨hr, hf, rfl, rfl, by rw [← h]⟩)))
          | cons w rest =>
            simp only [hu, hm] at h
            exact .inr (.inr (.inr (.inr ⟨w, rest, ⟨hc, hr, hf, hu, hm⟩, by rw [← h, accepted, hu]⟩)))
      · have hp : s.rspReady = false := by simpa using fun hx => hf (.inr hx)
        obtain ⟨r, hs⟩ := Option.ne_none_iff_exists'.mp (fun hx => hf (.inl hx))
        rw [deliver_held hp, act] at h
        simp only [activity, hs, Host.Outcome.next.injEq] at h
        exact .inr (.inl ⟨hr, by simp [hs], hp, h.symm⟩)
  · rw [if_neg hc] at h; cases h

/-! ### What a command other than `UPLOAD` can do -/

/-- The part of the state that only reset, `UPLOAD` and the outside world touch is the same in both. -/
structure SameLines (s t : State) : Prop where
  cfg : t.cfg = s.cfg
  upload : t.upload = s.upload
  rst : t.rst = s.rst
  cmd : t.cmd = s.cmd
  rspReady : t.rspReady = s.rspReady
  txRoom : t.txRoom = s.txRoom
  txr : t.txr = s.txr
  rspTaken : t.rspTaken = s.rspTaken
  tx : t.tx = s.tx

/-- A command other than `UPLOAD` that answers a next state has put exactly one response on the response channel and
left all the lines as they were. -/
theorem exec_sameLines {i : Instr} {s t : State} (hi : i ≠ .upload) (h : exec i s = .next t) :
    SameLines s t ∧ t.rsp.isSome = true := by
  cases i <;> simp only [exec] at h
  case upload => exact absurd rfl hi
  case nop => cases h; exact ⟨⟨rfl, rfl, rfl, rfl, rfl, rfl, rfl, rfl, rfl⟩, rfl⟩
  case cvtrb => cases h; exact ⟨⟨rfl, rfl, rfl, rfl, rfl, rfl, rfl, rfl, rfl⟩, rfl⟩
  case cvtsp => cases h; exact ⟨⟨rfl, rfl, rfl, rfl, rfl, rfl, rfl, rfl, rfl⟩, rfl⟩
  case fill => cases h; exact ⟨⟨rfl, rfl, rfl, rfl, rfl, rfl, rfl, rfl, rfl⟩, rfl⟩
  case fillr => cases h; exact ⟨⟨rfl, rfl, rfl, rfl, rfl, rfl, rfl, rfl, rfl⟩, rfl⟩
  case rainbow => cases h; exact ⟨⟨rfl, rfl, rfl, rfl, rfl, rfl, rfl, rfl, rfl⟩, rfl⟩
  case setup =>
    unfold execSetup at h
    split at h <;> cases h <;> exact ⟨⟨rfl, rfl, rfl, rfl, rfl, rfl, rfl, rfl, rfl⟩, rfl⟩
  case resize =>
    unfold execResize at h
    split at h <;> cases h <;> exact ⟨⟨rfl, rfl, rfl, rfl, rfl, rfl, rfl, rfl, rfl⟩, rfl⟩
  case setled =>
    unfold execSetled at h
    split at h <;> cases h <;> exact ⟨⟨rfl, rfl, rfl, rfl, rfl, rfl, rfl, rfl, rfl⟩, rfl⟩
  case getled =>
    unfold execGetled at h
    split at h
    · split at h <;> cases h
      exact ⟨⟨rfl, rfl, rfl, rfl, rfl, rfl, rfl, rfl, rfl⟩, rfl⟩
    · cases h; exact ⟨⟨rfl, rfl, rfl, rfl, rfl, rfl, rfl, rfl, rfl⟩, rfl⟩
  case rdctl =>
    unfold execRdctl at h
    split at h <;> cases h <;> exact ⟨⟨rfl, rfl, rfl, rfl, rfl, rfl, rfl, rfl, rfl⟩, rfl⟩
  case wrctl =>
    unfold execWrctl at h
    split at h
    · split at h <;> cases h <;> exact ⟨⟨rfl, rfl, rfl, rfl, rfl, rfl, rfl, rfl, rfl⟩, rfl⟩
    · split at h <;> cases h <;> exact ⟨⟨rfl, rfl, rfl, rfl, rfl, rfl, rfl, rfl, rfl⟩, rfl⟩
    all_goals cases h; exact ⟨⟨rfl, rfl, rfl, rfl, rfl, rfl, rfl, rfl, rfl⟩, rfl⟩

end Sys2Proof.Machine
end

