-- ==== Sys2Proof/Tests/Slice0.lean ====
section
/-! SUPPORT. Tests and witnesses. Expected values are those of spec/95_test_vectors.md (named in each comment) or of
the worked encodings of 30_encoding.md R96. The witnesses show, for every statement with hypotheses, a concrete state
and operands that meet them, at a boundary value of every clause. -/

namespace Sys2Proof.Machine.Tests

set_option Elab.async false

/-! ### Helpers -/

/-- A colour from three numbers. -/
def hsv (h s v : Nat) : Hsv := { hue := BitVec.ofNat 8 h, sat := BitVec.ofNat 8 s, val := BitVec.ofNat 8 v }

/-- The default configuration with other sizes. -/
def sized (maxBytes ledMax : Nat) : Config := { Config.default with maxBytes := maxBytes, ledMax := ledMax }

/-- A property of the next state, false where there is none. -/
def holds (o : Host.Outcome State Fault Refusal) (p : State → Bool) : Bool :=
  match o with
  | .next t => p t
  | .fault _ => false
  | .refused _ => false

theorem next_of_holds {o : Host.Outcome State Fault Refusal} {p : State → Bool} (h : holds o p = true) :
    ∃ t, o = .next t ∧ p t = true := by
  cases o with
  | next t => exact ⟨t, rfl, h⟩
  | fault _ => cases h
  | refused _ => cases h

/-- The command word `w` accepted in `s` answers `r`. -/
def answers (s : State) (w : CmdWord) (r : RspWord) : Bool :=
  holds (step { s with cmd := [w] }) (fun t => t.rsp == some r && t.cmd == [])

/-- The command word `w` accepted in `s` leaves the entries `fb`. -/
def leaves (s : State) (w : CmdWord) (fb : Memory Hsv) : Bool :=
  holds (step { s with cmd := [w] }) (fun t => t.fb == fb && t.rsp == some 0#32)

/-- The command word `w` accepted in `s` hands over the bytes `bytes` and answers `r`. -/
def sends (s : State) (w : CmdWord) (bytes : List Nat) (r : RspWord) : Bool :=
  holds (step { s with cmd := [w] }) (fun t => t.tx.map (fun x => x.data.toNat) == bytes && t.rsp == some r)

/-- The state after `SETUP 3` in the default configuration (section 2.5 and 2.6 of the vectors). -/
def three : State :=
  { State.reset with
    ledCount := 3#16, totalPkts := 1#8, fb := [(0, hsv 16 16 16), (1, hsv 16 16 16), (2, hsv 16 16 16)] }

/-- The same with `(1, 2, 3)` from entry 1 on (after vector F6). -/
def three' : State := { three with fb := [(0, hsv 16 16 16), (1, hsv 1 2 3), (2, hsv 1 2 3)] }

/-! ### Well-formedness and decoding -/

/-- The hue step of `RAINBOW` is 0 to 255 (R94). -/
theorem test_wellFormed_refuses_wide_step : (Instr.rainbow 256#16 (hsv 1 2 3)).WellFormed = false := by decide

theorem test_wellFormed_accepts_largest_step : (Instr.rainbow 255#16 (hsv 1 2 3)).WellFormed = true := by decide

/-- The word of the ill-formed term is the one R91 rejects (vector X23). -/
theorem test_wide_step_is_stray_bit : decode (encode (.rainbow 256#16 (hsv 1 2 3))) = .error .badField := by rfl

theorem test_decode_nop : decodeTableWord 64 0x0000000000000000 = some .nop := by decide
theorem test_decode_cvtrb : decodeTableWord 64 0x010000000055FFFF = some (.cvtrb (hsv 85 255 255)) := by decide
theorem test_decode_cvtsp : decodeTableWord 64 0x02000000005580C8 = some (.cvtsp (hsv 85 128 200)) := by decide
theorem test_decode_setup : decodeTableWord 64 0x1003E80000000000 = some (.setup 1000#16) := by decide
theorem test_decode_resize : decodeTableWord 64 0x1100040000000000 = some (.resize 4#16) := by decide
theorem test_decode_setled : decodeTableWord 64 0x120001000055FFFF = some (.setled 1#16 (hsv 85 255 255)) := by decide
theorem test_decode_getled : decodeTableWord 64 0x1300040000000000 = some (.getled 4#16) := by decide
theorem test_decode_fill : decodeTableWord 64 0x1400000000102030 = some (.fill (hsv 16 32 48)) := by decide
theorem test_decode_fillr :
    decodeTableWord 64 0x150008006480FFFF = some (.fillr 8#16 100#16 (hsv 128 255 255)) := by decide
theorem test_decode_rainbow :
    decodeTableWord 64 0x160000000AFAFFFF = some (.rainbow 10#16 (hsv 250 255 255)) := by decide
theorem test_decode_rdctl : decodeTableWord 64 0x2000010000000000 = some (.rdctl 1#16) := by decide
theorem test_decode_wrctl : decodeTableWord 64 0x2100020080000000 = some (.wrctl 2#16 128#16) := by decide
theorem test_decode_upload : decodeTableWord 64 0x3000000000000000 = some .upload := by decide

/-- Vectors X2, X3, X20: a stray bit, an unknown opcode with a stray bit, a stray bit in `b`. -/
theorem test_decode_rejects :
    decode 0x0000000000000001#64 = .error .badField ∧ decode 0xFF00000000000001#64 = .error .badOpcode ∧
      decode 0x12000300FF010203#64 = .error .badField := ⟨rfl, rfl, rfl⟩

/-! ### One step of each command -/

/-- Vector X1. -/
theorem test_nop : answers three 0x0000000000000000#64 0x00000000#32 = true := by decide +kernel

/-- Vectors A36 and A42. -/
theorem test_cvtrb_desaturated : answers three 0x0100000000407FFF#64 0x00C0C041#32 = true := by decide +kernel
theorem test_cvtrb_dimmed : answers three 0x010000000055FF80#64 0x00103A00#32 = true := by decide +kernel

/-- Vector E19, and E8 at hue 192 (R145: section 3 is as section 2). -/
theorem test_cvtsp : answers three 0x02000000005580C8#64 0x0063A584#32 = true := by decide +kernel
theorem test_cvtsp_section3 : answers three 0x0200000000C0FFFF#64 0x000000FB#32 = true := by decide +kernel

/-- Vector F1, and `SETUP 1001` with `LED_MAX = 1000` (section 2.5). -/
theorem test_setup : holds (step { State.reset with cmd := [0x1000030000000000#64] })
    (fun t => t.fb == three.fb && t.ledCount == 3#16 && t.totalPkts == 1#8 && t.rsp == some 1#32) = true := by
  decide +kernel
theorem test_setup_above_depth :
    answers (State.resetWith (sized 1400 1000)) 0x1003E90000000000#64 0x04000000#32 = true := by decide +kernel

/-- Program P4, steps 2 and 4. -/
theorem test_resize_up : holds
    (step { State.resetWith (sized 16 765) with
      ledCount := 2#16, totalPkts := 1#8, fb := [(0, hsv 16 16 16), (1, hsv 16 16 16)], cmd := [0x1100040000000000#64] })
    (fun t => t.fb == [(0, hsv 16 16 16), (1, hsv 16 16 16), (2, hsv 0 0 0), (3, hsv 0 0 0)] && t.rsp == some 2#32) =
      true := by decide +kernel
theorem test_resize_down : holds (step { three' with cmd := [0x1100010000000000#64] })
    (fun t => t.fb == [(0, hsv 16 16 16)] && t.ledCount == 1#16 && t.rsp == some 1#32) = true := by decide +kernel

/-- Vectors F3 and F5. -/
theorem test_setled :
    leaves three 0x120001000055FFFF#64 [(0, hsv 16 16 16), (1, hsv 85 255 255), (2, hsv 16 16 16)] = true := by
  decide +kernel
theorem test_setled_out_of_range : leaves three 0x1200030000010203#64 three.fb = true := by decide +kernel

/-- Vectors X8 and X7. -/
theorem test_getled : answers three 0x1300020000000000#64 0x00101010#32 = true := by decide +kernel
theorem test_getled_out_of_range : answers three 0x1300030000000000#64 0x03000000#32 = true := by decide +kernel

/-- Vector F14. -/
theorem test_fill :
    leaves three 0x1400000000102030#64 [(0, hsv 16 32 48), (1, hsv 16 32 48), (2, hsv 16 32 48)] = true := by
  decide +kernel

/-- Vectors F6 (the sum does not wrap) and F10. -/
theorem test_fillr : leaves three 0x150001FFFF010203#64 three'.fb = true := by decide +kernel
theorem test_fillr_at_count : leaves three' 0x1500030001070809#64 three'.fb = true := by decide +kernel

/-- Vectors F11 and F13. -/
theorem test_rainbow_down :
    leaves three 0x16000000F60564C8#64 [(0, hsv 5 100 200), (1, hsv 251 100 200), (2, hsv 241 100 200)] = true := by
  decide +kernel
theorem test_rainbow_period_two :
    leaves three 0x1600000080C80102#64 [(0, hsv 200 1 2), (1, hsv 72 1 2), (2, hsv 200 1 2)] = true := by
  decide +kernel

/-- Vectors X15 to X17. -/
theorem test_rdctl : answers three 0x2000040000000000#64 0x00000578#32 = true ∧
    answers three 0x2000050000000000#64 0x0000FFFF#32 = true := by decide +kernel
theorem test_rdctl_reserved : answers three 0x2000060000000000#64 0x05000000#32 = true := by decide +kernel

/-- Program P2, step 8, and vectors X9, X11, X12, X13. -/
theorem test_wrctl : holds (step { three with cmd := [0x2100020080000000#64] })
    (fun t => t.bright == 128#8 && t.law == 0#1 && t.rsp == some 0#32) = true := by decide +kernel
theorem test_wrctl_errors : answers three 0x21000703E7000000#64 0x05000000#32 = true ∧
    answers three 0x21000003E7000000#64 0x05000000#32 = true ∧
    answers three 0x2100020100000000#64 0x02000000#32 = true ∧
    answers three 0x2100030002000000#64 0x02000000#32 = true := by decide +kernel

/-- Program P2, step 9: two packets at half brightness, the second send fails. -/
theorem test_upload_two_packets : sends
    { State.resetWith (sized 16 765) with
      ledCount := 5#16, totalPkts := 2#8, bright := 128#8, txr := [.ok, .fail]
      fb := [(0, hsv 250 255 255), (1, hsv 4 255 255), (2, hsv 14 255 255), (3, hsv 24 255 255), (4, hsv 34 255 255)] }
    0x3000000000000000#64
    [0x9C, 0xDA, 0x00, 0x09, 0x01, 0x02, 0x77, 0x00, 0x08, 0x7A, 0x05, 0x00, 0x6D, 0x12, 0x00, 0x36,
     0x9C, 0xDA, 0x00, 0x06, 0x02, 0x02, 0x60, 0x1F, 0x00, 0x55, 0x2D, 0x00, 0x00, 0x00, 0x00, 0x36]
    0x00000201#32 = true := by decide +kernel

/-- Program P5, step 7: the smallest packet, every send fails. -/
theorem test_upload_smallest_packet : sends
    { State.resetWith (sized 10 255) with
      ledCount := 2#16, totalPkts := 2#8, txr := [.fail, .fail], fb := [(0, hsv 16 16 16), (1, hsv 96 255 255)] }
    0x3000000000000000#64
    [0x9C, 0xDA, 0x00, 0x03, 0x01, 0x02, 0x02, 0x02, 0x02, 0x36,
     0x9C, 0xDA, 0x00, 0x03, 0x02, 0x02, 0x00, 0xFF, 0x00, 0x36]
    0x00000202#32 = true := by decide +kernel

/-- Vectors X3, X6 and X24: unknown opcode, stray bit before a bad index, stray bit with `UPLOAD`. -/
theorem test_illegal_words : answers three 0xFF00000000000001#64 0x01000000#32 = true ∧
    answers three 0x1300090000000001#64 0x02000000#32 = true ∧
    answers three 0x3000000000000001#64 0x02000000#32 = true := by decide +kernel

/-- A placed word is the very next instruction (withFetchWord). -/
theorem test_withFetchWord : holds (step (State.reset.withFetchWord 64 0x2000040000000000))
    (fun t => t.rsp == some 0x00000578#32) = true := by decide +kernel

/-! ### Witness states -/

/-- Three LEDs where `MAX_BYTES = 12`: two packets of one LED each, so the third LED is in no packet (R219). -/
def strip : State :=
  { State.resetWith (sized 12 4) with
    ledCount := 3#16, totalPkts := 2#8, txr := [.ok, .fail]
    fb := [(0, hsv 0 255 255), (1, hsv 85 255 255), (2, hsv 170 255 255)] }

theorem strip_complete (i : Nat) : (readEntry strip i).isSome = true ↔ i < strip.ledCount.toNat := by
  match i with
  | 0 => decide
  | 1 => decide
  | 2 => decide
  | n + 3 => simp [readEntry, strip, Memory.lookup]

/-- A state that differs from `strip` in the lines, `BRIGHT` and `LAW` only is good. -/
theorem good_like {t : State} (hc : t.cfg = strip.cfg) (hn : t.ledCount = strip.ledCount)
    (ht : t.totalPkts = strip.totalPkts) (hf : t.fb = strip.fb) (hu : t.upload = none) : Good t where
  cfgOk := by rw [hc]; decide
  countOk := by rw [hc, hn]; decide
  totalOk := by rw [hc, hn, ht]; decide
  fbOk := by rw [hf]; decide
  fbComplete := fun i => by rw [readEntry, hf, hn]; exact strip_complete i
  uploadOk := fun u h => by rw [hu] at h; cases h
  quiet := fun h => by rw [hu] at h; cases h

/-- Packet 1 of the frame of `strip` (vector A1), of which the Transport has taken five bytes. -/
def midUpload : Upload :=
  { seq := 1#8, cur := 1#16, n := 3#16, failed := 0#8, pos := 5
    pkt := [(0, 0x9C#8), (1, 0xDA#8), (3, 0x03#8), (4, 0x01#8), (5, 0x02#8), (6, 0xFF#8), (11, 0x36#8)] }

/-- `strip` in the middle of an `UPLOAD`. -/
def mid : State := { strip with upload := some midUpload }

theorem mid_good : Good mid where
  cfgOk := by decide
  countOk := by decide
  totalOk := by decide
  fbOk := by decide
  fbComplete := strip_complete
  quiet := fun _ => rfl
  uploadOk := fun u h => by
    cases h
    exact
      { seqLow := by decide, seqHigh := by decide, curOk := by decide, nOk := by decide, failedOk := by decide
        posOk := by decide, pktOk := by decide, pktBound := by decide, bytesOk := by decide +kernel }

/-- `strip` in an `UPLOAD` of which the Transport has taken `pos` bytes, with the lines of the Transport as given. -/
def midAt (pos : Nat) (txRoom : Option Nat) (txr : List SendResult) : State :=
  { strip with upload := some { midUpload with pos := pos }, txRoom := txRoom, txr := txr }

theorem midAt_good {pos : Nat} (h : pos ≤ 12) (txRoom : Option Nat) (txr : List SendResult) :
    Good (midAt pos txRoom txr) where
  cfgOk := mid_good.cfgOk
  countOk := mid_good.countOk
  totalOk := mid_good.totalOk
  fbOk := mid_good.fbOk
  fbComplete := strip_complete
  quiet := fun _ => rfl
  uploadOk := fun u hu => by
    cases hu
    have k := mid_good.uploadOk midUpload rfl
    exact
      { seqLow := k.seqLow, seqHigh := k.seqHigh, curOk := k.curOk, nOk := k.nOk, failedOk := k.failedOk
        posOk := h, pktOk := k.pktOk, pktBound := k.pktBound, bytesOk := k.bytesOk }

/-- The word `w` presented to `strip`. -/
def offer (w : CmdWord) : State := { strip with cmd := [w] }

theorem offer_good (w : CmdWord) : Good (offer w) := good_like rfl rfl rfl rfl rfl

theorem strip_wellFormed : strip.cfg.WellFormed := by decide

theorem offer_accepting (w : CmdWord) : Accepting (offer w) w [] :=
  ⟨strip_wellFormed, rfl, .inl rfl, rfl, rfl⟩

/-! ### Witnesses: encoding -/

theorem test_witness_DecodeInvertsEncode : (Instr.rainbow 0#16 (hsv 0 0 0)).WellFormed = true ∧
    (Instr.rainbow 255#16 (hsv 255 255 255)).WellFormed = true ∧
    (Instr.fillr 65535#16 65535#16 (hsv 0 255 1)).WellFormed = true := by decide

theorem test_witness_EncodeInvertsDecode :
    decode 0x15FFFFFFFF102030#64 = .ok (.fillr 65535#16 65535#16 (hsv 16 32 48)) := rfl

/-! ### Witnesses: reset, configuration, invariants -/

theorem test_witness_ResetLineAbandonsTheCommand :
    { mid with rst := true }.cfg.WellFormed ∧ { mid with rst := true }.rst = true := by decide

/-- Boundaries of R8: the smallest and largest `MAX_BYTES`, the smallest and largest `LED_MAX`. -/
theorem test_witness_ResetStateIsGood : (sized 10 0).WellFormed ∧ (sized 10 255).WellFormed ∧
    (sized 65542 65535).WellFormed ∧ ¬ (sized 9 0).WellFormed ∧ ¬ (sized 65543 0).WellFormed ∧
    ¬ (sized 10 256).WellFormed ∧ ¬ (sized 1400 65536).WellFormed := by decide

/-- For EveryStepKeepsGoodStatesGood, GoodStatesNeverStop, ConfigurationNeverChanges: an `UPLOAD` that ends. -/
theorem test_witness_EveryStepKeepsGoodStatesGood : Good mid ∧ ∃ t, step mid = .next t ∧ t.upload.isNone = true :=
  ⟨mid_good, next_of_holds (by decide +kernel)⟩

theorem test_witness_EveryWordIsAnsweredOnce :
    Good { offer 0#64 with rsp := some 7#32 } ∧ { offer 0#64 with rsp := some 7#32 }.rst = false ∧
      ∃ t, step { offer 0#64 with rsp := some 7#32 } = .next t ∧ (t.rspTaken == [7#32]) = true :=
  ⟨good_like rfl rfl rfl rfl rfl, rfl, next_of_holds (by decide +kernel)⟩

/-- The four clauses about a result: no `UPLOAD`, all of a packet taken but its last byte, a packet taken whole, an
answer at hand. -/
theorem test_witness_OutsideWorldKeepsGoodStatesGood :
    (Good strip ∧ strip.upload = none ∧ strip.txr ≠ []) ∧
    (Good (midAt 11 none []) ∧ ∃ u, (midAt 11 none []).upload = some u ∧ u.pos < (midAt 11 none []).cfg.maxBytes) ∧
    (Good (midAt 12 none []) ∧ (midAt 12 none []).txr = [] ∧
      ∃ u, (midAt 12 none []).upload = some u ∧ u.pos = (midAt 12 none []).cfg.maxBytes) ∧
    (Good (midAt 12 none [.ok]) ∧ (midAt 12 none [.ok]).txr ≠ []) :=
  ⟨⟨good_like rfl rfl rfl rfl rfl, rfl, by decide⟩, ⟨midAt_good (by decide) _ _, _, rfl, by decide⟩,
    ⟨midAt_good (by decide) _ _, rfl, _, rfl, rfl⟩, ⟨midAt_good (by decide) _ _, by decide⟩⟩

/-- The result of packet 1 is consumed by the step that sends packet 2 and waits for the next result; a reset drops
it. -/
theorem test_witness_NoResultIsPendingOutsideUpload :
    (Good (midAt 12 none [.fail]) ∧ ResultsAwaited (midAt 12 none [.fail]) ∧
      ∃ t, step (midAt 12 none [.fail]) = .next t ∧ (t.upload.map (fun u => (u.seq, u.pos)) == some (2#8, 12))) ∧
    (Good { strip with txr := [], cmd := [0x3000000000000000#64] } ∧
      ResultsAwaited { strip with txr := [], cmd := [0x3000000000000000#64] } ∧
      ∃ t, step { strip with txr := [], cmd := [0x3000000000000000#64] } = .next t ∧ (t.tx.length == 12)) ∧
    (ResultsAwaited { midAt 12 none [.ok] with rst := true } ∧
      ∃ t, step { midAt 12 none [.ok] with rst := true } = .next t ∧ (t.txr == [] && t.upload.isNone)) :=
  ⟨⟨midAt_good (by decide) _ _, .inr ⟨_, _, rfl, rfl, rfl⟩, next_of_holds (by decide +kernel)⟩,
    ⟨good_like rfl rfl rfl rfl rfl, .inl rfl, next_of_holds (by decide +kernel)⟩,
    ⟨.inr ⟨_, _, rfl, rfl, rfl⟩, next_of_holds (by decide +kernel)⟩⟩

/-! ### Witnesses: steps and errors -/

theorem test_witness_StepRunsTheDecodedCommand :
    Accepting (offer 0x16000000FF0564C8#64) 0x16000000FF0564C8#64 [] ∧
      decode 0x16000000FF0564C8#64 = .ok (.rainbow 255#16 (hsv 5 100 200)) ∧
      (Instr.rainbow 255#16 (hsv 5 100 200)).WellFormed = true := ⟨offer_accepting _, rfl, by decide⟩

theorem test_witness_IllegalWordsAnswerAnError :
    (∀ w, Accepting (offer w) w [] ∧ Good (offer w)) ∧ ¬ LegalOp 0x0300000000000000#64 ∧
      LegalOp 0x3080000000000000#64 ∧ StrayBit 0x3080000000000000#64 := by
  refine ⟨fun w => ⟨offer_accepting w, offer_good w⟩, ?_⟩
  unfold LegalOp StrayBit
  decide

/-- Every clause of ErrorsAreReportedInOrder at a boundary: `RDCTL 6` and `WRCTL 4`, `WRCTL BRIGHT, 256` and
`WRCTL LAW, 2`, `SETUP 5` where `LED_MAX = 4`, `GETLED 3` where `LEDCOUNT = 3`; and no error: `RDCTL 5`,
`WRCTL BRIGHT, 255`, `SETUP 4`, `GETLED 2`. Accepting and Good hold for every word (`offer_accepting`,
`offer_good`). -/
theorem test_witness_ErrorsAreReportedInOrder :
    (LegalOp 0x2000060000000000#64 ∧ ¬ StrayBit 0x2000060000000000#64 ∧ BadRegister 0x2000060000000000#64) ∧
    (LegalOp 0x2100040000000000#64 ∧ ¬ StrayBit 0x2100040000000000#64 ∧ BadRegister 0x2100040000000000#64) ∧
    (LegalOp 0x2100020100000000#64 ∧ ¬ StrayBit 0x2100020100000000#64 ∧ ¬ BadRegister 0x2100020100000000#64 ∧
      WideValue 0x2100020100000000#64) ∧
    (LegalOp 0x2100030002000000#64 ∧ ¬ StrayBit 0x2100030002000000#64 ∧ ¬ BadRegister 0x2100030002000000#64 ∧
      WideValue 0x2100030002000000#64) ∧
    (LegalOp 0x1000050000000000#64 ∧ ¬ StrayBit 0x1000050000000000#64 ∧ BadCount strip 0x1000050000000000#64) ∧
    (LegalOp 0x1300030000000000#64 ∧ ¬ StrayBit 0x1300030000000000#64 ∧ BadIndex strip 0x1300030000000000#64) := by
  unfold LegalOp StrayBit BadRegister WideValue BadCount BadIndex
  and_intros <;> decide +kernel

/-- No error applies to the word `w` presented to `strip`. -/
def NoError (w : CmdWord) : Prop :=
  LegalOp w ∧ ¬ StrayBit w ∧ ¬ BadRegister w ∧ ¬ WideValue w ∧ ¬ BadCount strip w ∧ ¬ BadIndex strip w

theorem test_witness_ErrorsAreReportedInOrder_no_error :
    NoError 0x2000050000000000#64 ∧ NoError 0x21000200FF000000#64 ∧ NoError 0x1000040000000000#64 ∧
      NoError 0x1300020000000000#64 ∧ NoError 0x3000000000000000#64 := by
  unfold NoError LegalOp StrayBit BadRegister WideValue BadCount BadIndex
  and_intros <;> decide +kernel

/-- The word `w` accepted in `strip` answers the status `st`. -/
def wordStatus (w : CmdWord) (st : Byte) : Prop :=
  Accepting (offer w) w [] ∧
    ∃ t, step (offer w) = .next t ∧ (t.rsp.map (fun r => r.extractLsb' 24 8) == some st) = true

/-- A word with each of the five error statuses. -/
theorem test_witness_AnErrorChangesNothing :
    wordStatus 0x0300000000000000#64 1#8 ∧ wordStatus 0x0000000000000001#64 2#8 ∧
      wordStatus 0x1300030000000000#64 3#8 ∧ wordStatus 0x1000050000000000#64 4#8 ∧
      wordStatus 0x2000060000000000#64 5#8 :=
  ⟨⟨offer_accepting _, next_of_holds (by decide +kernel)⟩, ⟨offer_accepting _, next_of_holds (by decide +kernel)⟩,
    ⟨offer_accepting _, next_of_holds (by decide +kernel)⟩, ⟨offer_accepting _, next_of_holds (by decide +kernel)⟩,
    ⟨offer_accepting _, next_of_holds (by decide +kernel)⟩⟩

/-- The command `i` in `strip` answers the status `st`. -/
def commandStatus (i : Instr) (st : Byte) : Prop :=
  strip.rsp = none ∧ ∃ t, exec i strip = .next t ∧ (t.rsp.map (fun r => r.extractLsb' 24 8) == some st) = true

/-- A command with each of the five statuses of StatusCodesByCommand. -/
theorem test_witness_StatusCodesByCommand :
    commandStatus .nop 0#8 ∧ commandStatus (.wrctl 2#16 256#16) 2#8 ∧ commandStatus (.getled 3#16) 3#8 ∧
      commandStatus (.setup 5#16) 4#8 ∧ commandStatus (.rdctl 6#16) 5#8 ∧ commandStatus (.wrctl 1#16 0#16) 5#8 :=
  ⟨⟨rfl, next_of_holds (by decide +kernel)⟩, ⟨rfl, next_of_holds (by decide +kernel)⟩,
    ⟨rfl, next_of_holds (by decide +kernel)⟩, ⟨rfl, next_of_holds (by decide +kernel)⟩,
    ⟨rfl, next_of_holds (by decide +kernel)⟩, ⟨rfl, next_of_holds (by decide +kernel)⟩⟩

theorem test_witness_PendingResponseHoldsTheBlock :
    let held : State := { strip with rsp := some 7#32, rspReady := false }
    (held.cfg.WellFormed ∧ held.rst = false ∧ held.rsp = some 7#32 ∧ held.rspReady = false) ∧
    (strip.cfg.WellFormed ∧ strip.rst = false ∧ strip.rsp = none ∧ strip.upload = none ∧ strip.cmd = []) := by decide

/-! ### Witnesses: who writes what -/

/-- A change of each register, of an entry, and of what `UPLOAD` alone changes. -/
theorem test_witness_EachRegisterHasItsWriters :
    (∃ t, exec (.setup 1#16) strip = .next t ∧ (t.ledCount != strip.ledCount && t.totalPkts != strip.totalPkts)) ∧
    (∃ t, exec (.wrctl 2#16 0#16) strip = .next t ∧ (t.bright != strip.bright)) ∧
    (∃ t, exec (.wrctl 3#16 1#16) strip = .next t ∧ (t.law != strip.law)) ∧
    (∃ t, exec (.setled 2#16 (hsv 1 2 3)) strip = .next t ∧ (readEntry t 2 != readEntry strip 2)) ∧
    (∃ t, exec .upload strip = .next t ∧ (t.tx != strip.tx && t.txr != strip.txr)) ∧
    (∃ t, exec .upload { strip with txr := [] } = .next t ∧ (t.upload != strip.upload)) :=
  ⟨next_of_holds (by decide +kernel), next_of_holds (by decide +kernel), next_of_holds (by decide +kernel),
    next_of_holds (by decide +kernel), next_of_holds (by decide +kernel), next_of_holds (by decide +kernel)⟩

theorem test_witness_ReadingCommandsChangeNothing :
    (∃ t, exec (.getled 2#16) strip = .next t ∧ (t.rsp == some 0x00AAFFFF#32)) ∧
    (∃ t, exec (.rdctl 5#16) strip = .next t ∧ (t.rsp == some 4#32)) ∧
    (∃ t, exec .upload strip = .next t ∧ (t.rsp == some 0x00000201#32)) :=
  ⟨next_of_holds (by decide +kernel), next_of_holds (by decide +kernel), next_of_holds (by decide +kernel)⟩

theorem test_witness_CommandsAreIdempotent :
    Instr.resize 4#16 ≠ .upload ∧ ∃ t, exec (.resize 4#16) strip = .next t ∧ (t.fb.length == 4) :=
  ⟨by decide, next_of_holds (by decide +kernel)⟩

/-! ### Witnesses: colours -/

/-- For RescaleIsScaleEightVideo (R112 starts at `x = 1`) and BrightnessMultiplierIsExact (the largest product, and
equal arguments). -/
theorem test_witness_arithmetic : 1#8 ≠ 0#8 ∧ 65025 ≤ 65025 ∧ (254#8 : Byte).toNat ≤ (254#8 : Byte).toNat := by decide

/-- For SectorTableDoesNotWrap and CvtrbAnswersTheRainbowLaw. -/
theorem test_witness_CvtrbAnswersTheRainbowLaw : StandardRainbow strip.cfg := ⟨rfl, rfl, rfl⟩

/-- Each clause of RainbowLawProperties, and the smallest and largest saturation strictly between 0 and 255. -/
theorem test_witness_RainbowLawProperties :
    hsv2rgbRainbow Config.default (hsv 77 0 255) = { red := 255#8, green := 255#8, blue := 255#8 } ∧
    hsv2rgbRainbow Config.default (hsv 123 45 0) = { red := 0#8, green := 0#8, blue := 0#8 } ∧
    hsv2rgbRainbow Config.default (hsv 85 255 255) = { red := 60#8, green := 225#8, blue := 0#8 } ∧
    hsv2rgbRainbow Config.default (hsv 0 1 255) = { red := 255#8, green := 253#8, blue := 253#8 } ∧
    hsv2rgbRainbow Config.default (hsv 0 254 255) = { red := 255#8, green := 1#8, blue := 1#8 } := by
  decide +kernel

/-- Each clause of SpectrumLawProperties (vectors E15, E14, E11). -/
theorem test_witness_SpectrumLawProperties :
    hsv2rgbSpectrum .asSection2 (hsv 0 0 0) = { red := 0#8, green := 0#8, blue := 0#8 } ∧
    hsv2rgbSpectrum .asSection2 (hsv 0 0 255) = { red := 254#8, green := 254#8, blue := 254#8 } ∧
    hsv2rgbSpectrum .asSection2 (hsv 192 255 255) = { red := 0#8, green := 0#8, blue := 251#8 } := by decide +kernel

/-! ### Witnesses: FrameBuffer and control registers -/

/-- For SetupCreatesTheBuffer, ResizeKeepsTheSurvivors and CountsAboveTheDepthAreErrors: no entry, the depth, and one
above it. -/
theorem test_witness_counts : (0#16 : Half).toNat ≤ strip.cfg.ledMax ∧ (4#16 : Half).toNat ≤ strip.cfg.ledMax ∧
    strip.cfg.ledMax < (5#16 : Half).toNat := by decide

/-- For SetledStoresOneEntry and GetledAnswersTheEntry: the last visible index and the first invisible one. -/
theorem test_witness_indices : (2#16 : Half).toNat < strip.ledCount.toNat ∧
    readEntry strip (2#16 : Half).toNat = some (hsv 170 255 255) ∧ strip.ledCount.toNat ≤ (3#16 : Half).toNat := by
  decide

/-- The clauses of SilentCasesAnswerOk: an index at the count, an empty range, an empty FrameBuffer, an `UPLOAD` that
ends with a failed send. -/
theorem test_witness_SilentCasesAnswerOk : strip.ledCount.toNat ≤ (3#16 : Half).toNat ∧
    min ((1#16 : Half).toNat + (0#16 : Half).toNat) strip.ledCount.toNat ≤ (1#16 : Half).toNat ∧
    min ((3#16 : Half).toNat + (65535#16 : Half).toNat) strip.ledCount.toNat ≤ (3#16 : Half).toNat ∧
    (State.reset.ledCount = 0#16 ∧ State.reset.totalPkts = 0#8) ∧
    ∃ t, exec .upload strip = .next t ∧ t.upload.isNone = true :=
  ⟨by decide, by decide, by decide, by decide, next_of_holds (by decide +kernel)⟩

theorem test_witness_GetledReturnsTheLatestWrite : (2#16 : Half).toNat < strip.ledCount.toNat ∧ (0#16 : Half) ≠ 2#16 ∧
    (∃ t, exec (.setled 2#16 (hsv 1 2 3)) strip = .next t ∧ (t.rsp == some 0#32)) ∧
    exec (.getled 0#16) strip = .next { strip with rsp := some 0x0000FFFF#32 } :=
  ⟨by decide, by decide, next_of_holds (by decide +kernel), rfl⟩

/-- The inner clauses of RainbowStoresTheRamp: entry 0, and the last pair of neighbours. -/
theorem test_witness_RainbowStoresTheRamp : 0 < strip.ledCount.toNat ∧ 1 + 1 < strip.ledCount.toNat ∧
    ∃ t, exec (.rainbow 10#16 (hsv 250 255 255)) strip = .next t ∧
      (readEntry t 1 == some (hsv 4 255 255) && readEntry t 2 == some (hsv 14 255 255)) :=
  ⟨by decide, by decide, next_of_holds (by decide +kernel)⟩

/-- Every register number, the first reserved one and the last. -/
theorem test_witness_RdctlReadsTheRegisters : strip.cfg.WellFormed ∧ 6 ≤ (6#16 : Half).toNat ∧
    6 ≤ (65535#16 : Half).toNat := by decide

/-- `WRCTL` values at the widths of `BRIGHT` and `LAW`, and the numbers of the read-only and reserved registers. -/
theorem test_witness_WrctlWritesBrightAndLaw : (255#16 : Half).toNat ≤ 255 ∧ 255 < (256#16 : Half).toNat ∧
    (1#16 : Half).toNat ≤ 1 ∧ 1 < (2#16 : Half).toNat ∧
    ((1#16 : Half) ≠ 2#16 ∧ (1#16 : Half) ≠ 3#16) ∧ ((4#16 : Half) ≠ 2#16 ∧ (4#16 : Half) ≠ 3#16) ∧
    ((65535#16 : Half) ≠ 2#16 ∧ (65535#16 : Half) ≠ 3#16) := by decide

/-! ### Witnesses: UPLOAD -/

theorem test_witness_UploadSendsTheFrame : Good strip ∧ strip.txRoom = none ∧
    strip.totalPkts.toNat ≤ strip.txr.length ∧
    (∀ k, k < min strip.ledCount.toNat (strip.totalPkts.toNat * strip.cfg.ledsPerPacket) →
      (readEntry strip k).isSome = true) ∧
    ∃ t, exec .upload strip = .next t ∧ (t.tx.length == 24) :=
  ⟨good_like rfl rfl rfl rfl rfl, rfl, by decide, by decide, next_of_holds (by decide +kernel)⟩

theorem test_witness_EmptyFrameSendsNothing : State.reset.totalPkts = 0#8 := rfl

theorem test_witness_SilentTransportHangsTheBlock :
    let s : State := { strip with txr := [] }
    Good s ∧ s.rst = false ∧ s.rsp = none ∧ 0 < s.totalPkts.toNat ∧ s.txRoom = none ∧ s.txr = [] :=
  ⟨good_like rfl rfl rfl rfl rfl, rfl, rfl, by decide, rfl, rfl⟩

/-- Room for no byte, for packet 1 but its last byte, for packet 1, for the frame but its last byte (the answers needed
are at hand); room for the frame and for one byte more; too few answers, with no bound on the room and with just enough
of it. -/
theorem test_witness_StalledTransportTakesAPrefix :
    (strip.rst = false ∧ strip.rsp = none ∧ strip.totalPkts.toNat * strip.cfg.maxBytes = 24) ∧
    (∀ r ∈ [0, 11, 12, 23], Good { strip with txRoom := some r } ∧ r < 24 ∧ r / 12 ≤ strip.txr.length) ∧
    (∀ r ∈ [24, 25], Good { strip with txRoom := some r } ∧ 24 ≤ r ∧ 2 ≤ strip.txr.length) ∧
    (∀ room ∈ [none, some 24], Good { strip with txRoom := room, txr := [.fail] } ∧
      ∀ r, room = some r → (1 + 1) * 12 ≤ r) ∧
    ∃ t, exec .upload { strip with txRoom := some 13 } = .next t ∧ (t.tx.length == 13 && t.txr == [.fail]) := by
  refine ⟨⟨rfl, rfl, by decide⟩, fun r h => ⟨good_like rfl rfl rfl rfl rfl, ?_⟩,
    fun r h => ⟨good_like rfl rfl rfl rfl rfl, ?_⟩, fun room h => ⟨good_like rfl rfl rfl rfl rfl, ?_⟩,
    next_of_holds (by decide +kernel)⟩
  · revert r; decide
  · revert r; decide
  · rcases List.mem_pair.mp h with rfl | rfl <;> simp

/-- Stopped at byte 5 of packet 1 of two: no bound on the room and just enough of it; a second stall at the same byte,
at the last of packet 1, between the packets and before the last byte; too few answers. Stopped behind packet 1: an
answer and no room. -/
theorem test_witness_ResumedUploadSendsTheRest :
    (∀ room txr, Good (midAt 5 room txr) ∧ (midAt 5 room txr).rst = false ∧
      (midAt 5 room txr).totalPkts.toNat - midUpload.seq.toNat + 1 = 2 ∧ (midAt 5 room txr).cfg.maxBytes = 12) ∧
    ((∀ r, some 19 = some r → 2 * 12 ≤ 5 + r) ∧ 2 ≤ [SendResult.ok, .fail].length) ∧
    (∀ r ∈ [0, 6, 7, 18], 5 + r < 2 * 12 ∧ (5 + r) / 12 ≤ [SendResult.ok].length) ∧
    ([SendResult.ok].length < 2 ∧ ∀ r, some 19 = some r → (1 + 1) * 12 ≤ 5 + r) ∧
    (Good (midAt 12 (some 0) [.ok]) ∧ 12 + 0 < 2 * 12 ∧ (12 + 0) / 12 ≤ [SendResult.ok].length) ∧
    ∃ t, step (midAt 5 (some 8) [.ok]) = .next t ∧ (t.tx.length == 8 && t.txr == []) :=
  ⟨fun _ _ => ⟨midAt_good (by decide) _ _, rfl, rfl, rfl⟩, by simp, by decide, by simp,
    ⟨midAt_good (by decide) _ _, by decide, by decide⟩, next_of_holds (by decide +kernel)⟩

/-- An `UPLOAD` out of answers; one that has met a stall; one gone on with that stalls again. -/
theorem test_witness_LateAnswersGiveTheSameFrame :
    (strip.cfg.WellFormed ∧ strip.rst = false ∧ strip.rsp = none ∧ strip.txRoom = none ∧
      ∃ t, exec .upload { strip with txr := [.ok] } = .next t ∧ t.upload.isSome = true) ∧
    (∃ t, exec .upload { strip with txRoom := some 13 } = .next t ∧ t.upload.isSome = true) ∧
    (Good (midAt 5 (some 3) []) ∧ (midAt 5 (some 3) []).rst = false ∧ (midAt 5 (some 3) []).upload.isSome = true ∧
      ∃ t, step (midAt 5 (some 3) []) = .next t ∧ t.upload.isSome = true) :=
  ⟨⟨by decide, rfl, rfl, rfl, next_of_holds (by decide +kernel)⟩, next_of_holds (by decide +kernel),
    ⟨midAt_good (by decide) _ _, rfl, rfl, next_of_holds (by decide +kernel)⟩⟩

theorem test_witness_FailedSendsOnlyCount : Good strip ∧ strip.txRoom = none ∧
    strip.totalPkts.toNat ≤ [SendResult.ok, .ok].length ∧ strip.totalPkts.toNat ≤ [SendResult.fail, .fail].length :=
  ⟨good_like rfl rfl rfl rfl rfl, rfl, by decide, by decide⟩

/-- For EveryPacketIsFramed and PayloadIsTheConvertedStrip: the first and the last packet. -/
theorem test_witness_EveryPacketIsFramed : Good strip ∧ strip.txRoom = none ∧
    strip.totalPkts.toNat ≤ strip.txr.length ∧ 0 < strip.totalPkts.toNat ∧ 1 < strip.totalPkts.toNat ∧
    ∃ t, exec .upload strip = .next t ∧ (t.tx.length == 24) :=
  ⟨good_like rfl rfl rfl rfl rfl, rfl, by decide, by decide, by decide, next_of_holds (by decide +kernel)⟩

/-- The entry that no packet carries is another one. -/
theorem test_witness_UndercountedTailIsNeverSent : Good strip ∧
    strip.totalPkts.toNat * strip.cfg.ledsPerPacket < strip.ledCount.toNat ∧
    (∀ i, i < strip.totalPkts.toNat * strip.cfg.ledsPerPacket →
      Memory.lookup [(0, hsv 0 255 255), (1, hsv 85 255 255), (2, hsv 1 2 3)] i = readEntry strip i) ∧
    strip.txRoom = none ∧ strip.totalPkts.toNat ≤ strip.txr.length :=
  ⟨good_like rfl rfl rfl rfl rfl, by decide, by decide, rfl, by decide⟩

theorem test_witness_UndercountNeedsASpareByte :
    (sized 10 255).WellFormed ∧ (sized 10 255).payloadCap % 3 = 0 ∧ 1392 < 1393 := by decide

theorem test_witness_ZeroBrightnessSendsDarkPackets :
    let s : State := { strip with bright := 0#8 }
    Good s ∧ s.bright = 0#8 ∧ s.txRoom = none ∧ s.totalPkts.toNat ≤ s.txr.length ∧
      ∃ t, exec .upload s = .next t ∧ (t.tx.length == 24) :=
  ⟨good_like rfl rfl rfl rfl rfl, rfl, rfl, by decide, next_of_holds (by decide +kernel)⟩

end Sys2Proof.Machine.Tests
end

/-! ## The family of 00_scope.md

The configurations a step refuses (O10), and the packets of a frame that meets no stall and finds its answers (O55). -/

namespace Sys2Proof.Machine

/-! ### Which steps are refused (00_scope.md R8) -/

theorem frameLoop_ne_refused (k : Nat) (s : State) (u : Upload) (r : Refusal) : frameLoop k s u ≠ .refused r := by
  induction k generalizing s u with
  | zero => unfold frameLoop; split <;> simp
  | succ k ih =>
    unfold frameLoop
    split
    · simp
    · split
      · exact ih _ _
      · simp

/-- Every command has a meaning: none is refused. -/
theorem exec_ne_refused (i : Instr) (s : State) (r : Refusal) : exec i s ≠ .refused r := by
  cases i <;> simp only [exec]
  case nop => simp [execNop]
  case cvtrb => simp [execCvtrb]
  case cvtsp => simp [execCvtsp]
  case setup => unfold execSetup; split <;> simp
  case resize => unfold execResize; split <;> simp
  case setled => unfold execSetled; split <;> simp
  case getled =>
    unfold execGetled
    split
    · split <;> simp
    · simp
  case fill => simp [execFill]
  case fillr => simp [execFillr]
  case rainbow => simp [execRainbow]
  case rdctl => unfold execRdctl; split <;> simp
  case wrctl =>
    unfold execWrctl
    split
    · split <;> simp
    · split <;> simp
    all_goals simp
  case upload =>
    unfold execUpload
    split
    · simp
    · split
      · exact frameLoop_ne_refused _ _ _ _
      · simp

theorem runWord_ne_refused (w : CmdWord) (s : State) (r : Refusal) : runWord w s ≠ .refused r := by
  unfold runWord
  split
  · exact exec_ne_refused _ _ _
  · simp

theorem act_ne_refused (s : State) (r : Refusal) : act s ≠ .refused r := by
  unfold act
  split
  · simp
  · exact frameLoop_ne_refused _ _ _ _
  · simp
  · exact runWord_ne_refused _ _ _

/-- The one refusal of a step is that of an ill-formed configuration, and it comes before everything else. -/
theorem step_refused_iff (s : State) (r : Refusal) :
    step s = .refused r ↔ ¬ s.cfg.WellFormed ∧ r = .illFormedConfig := by
  unfold step
  by_cases hw : s.cfg.WellFormed
  · rw [if_pos hw]
    split
    · simp [hw]
    · simp [hw, act_ne_refused]
  · rw [if_neg hw]
    simp [hw, eq_comm]

/-- The conditions of 00_scope.md R8 in plain arithmetic. -/
theorem wellFormed_iff (c : Config) : c.WellFormed ↔
    10 ≤ c.maxBytes ∧ c.maxBytes ≤ 65542 ∧ c.ledMax ≤ 65535 ∧
      (3 * c.ledMax + (c.maxBytes - 7) - 1) / (c.maxBytes - 7) ≤ 255 :=
  and_assoc

theorem default_totalPackets : Config.default.totalPackets 65535 = 142 := by decide

theorem default_wellFormed : Config.default.WellFormed := by decide

/-- Settles O10: a step refuses exactly where the test of R8 fails, because no command refuses. -/
theorem illFormedConfigurationsAreRefused : Obligations.IllFormedConfigurationsAreRefused := by
  refine ⟨fun s => ?_, fun n => by omega, fun h => ?_, rfl, default_totalPackets⟩
  · rw [step_refused_iff, wellFormed_iff]
    simp
  · exact ((step_refused_iff _ _).mp h).1 default_wellFormed

/-! ### What a send leaves (43_packetizer.md R220 to R224) -/

/-- The state once the Transport has taken `beats`, with `answers` still to come. -/
def afterSending (s : State) (beats : List Beat) (answers : List SendResult) : State :=
  { s with tx := s.tx ++ beats, txr := answers }

section AfterSending

variable (s : State) (beats : List Beat) (answers : List SendResult)

@[simp] theorem afterSending_cfg : (afterSending s beats answers).cfg = s.cfg := rfl

@[simp] theorem afterSending_totalPkts : (afterSending s beats answers).totalPkts = s.totalPkts := rfl

@[simp] theorem afterSending_txRoom : (afterSending s beats answers).txRoom = s.txRoom := rfl

@[simp] theorem afterSending_txr : (afterSending s beats answers).txr = answers := rfl

@[simp] theorem afterSending_tx : (afterSending s beats answers).tx = s.tx ++ beats := rfl

@[simp] theorem restOfFrame_afterSending (seq pos : Nat) :
    restOfFrame (afterSending s beats answers) seq pos = restOfFrame s seq pos := rfl

@[simp] theorem buildPacket_afterSending (seq failed : Byte) (cur : Half) :
    buildPacket (afterSending s beats answers) seq cur failed = buildPacket s seq cur failed :=
  buildPacket_lines s s.upload s.txRoom answers (s.tx ++ beats) seq cur failed

/-- Two sends after each other. -/
@[simp] theorem afterSending_afterSending (beats' : List Beat) (answers' : List SendResult) :
    afterSending (afterSending s beats answers) beats' answers' = afterSending s (beats ++ beats') answers' := by
  simp [afterSending, List.append_assoc]

variable {s beats answers}

theorem FbComplete.afterSending (h : FbComplete s) : FbComplete (afterSending s beats answers) := h

theorem UploadOk.afterSending {u : Upload} (h : UploadOk s u) : UploadOk (afterSending s beats answers) u :=
  { h with }

end AfterSending

/-- With no stall and an answer at hand, a send hands over what is left of the packet of the closed form. -/
theorem sendPacket_of_uploadOk {s : State} {u : Upload} {r : SendResult} {rest : List SendResult}
    (hu : UploadOk s u) (hroom : s.txRoom = none) (htxr : s.txr = r :: rest) :
    sendPacket s u =
      .returned (afterSending s ((packetOf s u.seq.toNat).drop u.pos) rest) (countFailure r u.failed) := by
  rw [sendPacket_returns hroom hu.posOk htxr, packetBeats_eq rfl hu.bytesOk]
  rfl

/-! ### A frame that meets no stall (43_packetizer.md R210, R215, R216)

`frameLoop_completes` speaks of an `UPLOAD` stopped at any byte of any packet, so that it serves a fresh frame and one
that is resumed. -/

theorem restOfFrame_last {s : State} {k : Nat} (h : k = s.totalPkts.toNat) (pos : Nat) :
    restOfFrame s k pos = (packetOf s k).drop pos := by
  simp [restOfFrame, h]

/-- What is left of a frame is what is left of its packet and then the packets after it. -/
theorem restOfFrame_next {s : State} {k : Nat} (h : k < s.totalPkts.toNat) (pos : Nat) :
    restOfFrame s k pos = (packetOf s k).drop pos ++ restOfFrame s (k + 1) 0 := by
  have hleft : s.totalPkts.toNat - k = s.totalPkts.toNat - (k + 1) + 1 := by omega
  simp [restOfFrame, hleft, List.range'_succ]

/-- Counting an answer now or with the answers after it is the same. -/
theorem countFailure_add_failures (r : SendResult) (failed : Byte) (xs : List SendResult) :
    countFailure r failed + BitVec.ofNat 8 (failures xs) = failed + BitVec.ofNat 8 (failures (r :: xs)) := by
  cases r with
  | ok => simp [countFailure, failures]
  | fail =>
    simp only [countFailure, failures, List.count_cons_self, BitVec.ofNat_add]
    rw [BitVec.add_assoc, BitVec.add_comm 1#8]

theorem countFailure_le (r : SendResult) (failed : Byte) : (countFailure r failed).toNat ≤ failed.toNat + 1 := by
  cases r with
  | ok => exact Nat.le_succ _
  | fail => simp only [countFailure, BitVec.toNat_add, BitVec.toNat_ofNat]; omega

/-- A packet just built is the transient state of an `UPLOAD` of which the Transport has taken nothing. -/
theorem Built.uploadOk {s : State} {k : Nat} {failed : Byte} {u : Upload} (h : Built s k failed u) (hlow : 1 ≤ k)
    (hhigh : k ≤ s.totalPkts.toNat) (hfailed : failed.toNat < k) : UploadOk s u where
  seqLow := by rw [h.seq]; exact hlow
  seqHigh := by rw [h.seq]; exact hhigh
  curOk := by rw [h.seq]; exact h.cur
  nOk := by rw [h.seq]; exact h.n
  failedOk := by rw [h.seq, h.failedEq]; exact hfailed
  posOk := by rw [h.pos]; exact Nat.zero_le _
  pktOk := h.wf
  pktBound := h.bound
  bytesOk := by rw [h.seq]; exact h.bytes

/-- From the packet under way the next one is built, and it is the one of the closed form. -/
theorem buildPacket_next {s : State} {u : Upload} (hw : s.cfg.WellFormed) (hfb : FbComplete s) (hu : UploadOk s u)
    (hmore : u.seq.toNat < s.totalPkts.toNat) (r : SendResult) :
    ∃ v, buildPacket s (u.seq + 1#8) u.cur (countFailure r u.failed) = some v ∧ UploadOk s v ∧
      v.seq.toNat = u.seq.toNat + 1 ∧ v.pos = 0 ∧ v.failed = countFailure r u.failed := by
  have hseq : (u.seq + 1#8).toNat = u.seq.toNat + 1 := by
    simp only [BitVec.toNat_add, BitVec.toNat_ofNat]; omega
  obtain ⟨v, hbuild, hv⟩ := buildPacket_spec hw (seq := u.seq + 1#8) (failed := countFailure r u.failed) (cur := u.cur)
    (by omega) (by rw [hseq]; exact hu.curOk) (fun i hi => (hfb i).mpr (by omega))
  have hcount := countFailure_le r u.failed
  have hfailed := hu.failedOk
  exact ⟨v, hbuild, hv.uploadOk (by omega) (by omega) (by omega), by rw [hv.seq, hseq], hv.pos, hv.failedEq⟩

/-- With no stall and an answer for every send the rest of the frame goes out and the command ends. -/
theorem frameLoop_completes (n : Nat) {s : State} {u : Upload} (hw : s.cfg.WellFormed) (hfb : FbComplete s)
    (hu : UploadOk s u) (hn : u.seq.toNat + n = s.totalPkts.toNat) (hroom : s.txRoom = none)
    (hans : n + 1 ≤ s.txr.length) :
    frameLoop n s u = .next (endFrame (u.failed + BitVec.ofNat 8 (failures (s.txr.take (n + 1))))
      (afterSending s (restOfFrame s u.seq.toNat u.pos) (s.txr.drop (n + 1)))) := by
  induction n generalizing s u with
  | zero =>
    obtain ⟨r, rest, htxr⟩ := List.exists_cons_of_length_pos hans
    rw [frameLoop_zero_returns (sendPacket_of_uploadOk hu hroom htxr), htxr, List.take_succ_cons,
      ← countFailure_add_failures, restOfFrame_last (by omega)]
    simp [failures]
  | succ n ih =>
    obtain ⟨r, rest, htxr⟩ := List.exists_cons_of_length_pos (Nat.zero_lt_of_lt hans)
    have hrest : n + 1 ≤ rest.length := by simpa [htxr] using hans
    obtain ⟨v, hbuild, hv, hseq, hpos, hfailed⟩ := buildPacket_next hw hfb hu (by omega) r
    rw [frameLoop_succ_returns (sendPacket_of_uploadOk hu hroom htxr) ((buildPacket_afterSending ..).trans hbuild),
      ih (s := afterSending s _ rest) hw hfb.afterSending hv.afterSending (by rw [hseq, afterSending_totalPkts]; omega)
        hroom hrest,
      htxr, List.take_succ_cons, ← countFailure_add_failures, restOfFrame_next (k := u.seq.toNat) (by omega)]
    simp [hseq, hpos, hfailed]

/-- `UPLOAD` with no stall and an answer for every send: the whole frame goes out and the command ends
(R215, R216). -/
theorem execUpload_completes {s : State} (hg : Good s) (hroom : s.txRoom = none)
    (hans : s.totalPkts.toNat ≤ s.txr.length) :
    exec .upload s = .next (endFrame (BitVec.ofNat 8 (failures (s.txr.take s.totalPkts.toNat)))
      (afterSending s (frameOf s) (s.txr.drop s.totalPkts.toNat))) := by
  simp only [exec, execUpload]
  cases htotal : s.totalPkts.toNat with
  | zero => simp [frameOf, htotal, failures, afterSending]
  | succ n =>
    obtain ⟨u, hbuild, hb⟩ := buildPacket_spec hg.cfgOk (seq := 1#8) (failed := 0#8) (cur := 0#16) (by decide)
      (by simp) (fun i hi => (hg.fbComplete i).mpr (by omega))
    have hseq : u.seq.toNat = 1 := hb.seq
    have hu : UploadOk s u := hb.uploadOk (by decide) (by rw [htotal]; simp) (by decide)
    simp only [hbuild]
    rw [frameLoop_completes n hg.cfgOk hg.fbComplete hu (by omega) hroom (by omega), hseq, hb.pos, hb.failedEq,
      ← frameOf_eq_restOfFrame (by omega)]
    simp

/-! ### The beats of a frame (43_packetizer.md R218, R221; 20_memory.md R56) -/

/-- In a concatenation of blocks of one size, place `j` of block `k`. -/
theorem flatMap_getElem?_of_const {α β : Type} {l : List α} {f : α → List β} {n : Nat} (h : ∀ x, (f x).length = n)
    (k : Nat) {j : Nat} (hj : j < n) : (l.flatMap f)[k * n + j]? = l[k]?.bind (fun x => (f x)[j]?) := by
  induction l generalizing k with
  | nil => simp
  | cons x l ih =>
    rw [List.flatMap_cons]
    cases k with
    | zero => rw [List.getElem?_append_left (by rw [h]; omega)]; simp
    | succ k =>
      have hoff : (k + 1) * n + j - n = k * n + j := by rw [Nat.succ_mul]; omega
      rw [List.getElem?_append_right (by rw [h, Nat.succ_mul]; omega), h, hoff, ih]
      simp

theorem frameOf_length (s : State) : (frameOf s).length = s.totalPkts.toNat * s.cfg.maxBytes := by
  simp [frameOf, List.length_flatMap]

/-- Byte `j` of packet `k + 1` in the frame, with its side bands. -/
theorem frameOf_getElem? {s : State} {k j : Nat} (hk : k < s.totalPkts.toNat) (hj : j < s.cfg.maxBytes) :
    (frameOf s)[k * s.cfg.maxBytes + j]? = some
      { data := packetByte s (k + 1) j
        last := decide (j + 1 = s.cfg.maxBytes)
        sof := decide (k = 0)
        eof := decide (k + 1 = s.totalPkts.toNat) } := by
  rw [frameOf, flatMap_getElem?_of_const (packetOf_length s) k hj]
  simp [packetOf, hk, hj, Nat.add_comm 1 k]

section Header

variable (s : State) (k : Nat)

@[simp] theorem packetByte_startMarker : packetByte s k 0 = s.cfg.startMarker := rfl

@[simp] theorem packetByte_typeMarker : packetByte s k 1 = s.cfg.typeMarker := rfl

@[simp] theorem packetByte_number : packetByte s k 4 = BitVec.ofNat 8 k := rfl

@[simp] theorem packetByte_total : packetByte s k 5 = s.totalPkts := rfl

end Header

/-- The last byte of a packet is none of the six header bytes. -/
theorem packetByte_endMarker {s : State} (hw : s.cfg.WellFormed) (k : Nat) :
    packetByte s k (s.cfg.maxBytes - 1) = s.cfg.endMarker := by
  obtain ⟨⟨hmin, _⟩, _⟩ := hw
  unfold packetByte
  iterate 6 rw [if_neg (by omega)]
  rw [if_pos (by omega)]

/-- Settles O55: `UPLOAD` sends the frame of the closed form, and every beat of that is known. -/
theorem everyPacketIsFramed : Obligations.EveryPacketIsFramed := by
  refine ⟨⟨rfl, rfl, rfl⟩, fun s t hg hroom hans hexec => ?_⟩
  rw [execUpload_completes hg hroom hans] at hexec
  cases hexec
  have hmin : 10 ≤ s.cfg.maxBytes := hg.cfgOk.1.1
  refine ⟨frameOf s, rfl, frameOf_length s, fun k hk => ?_⟩
  have hbyte : ∀ j, j < s.cfg.maxBytes →
      (frameOf s)[k * s.cfg.maxBytes + j]?.map Beat.data = some (packetByte s (k + 1) j) :=
    fun j hj => by rw [frameOf_getElem? hk hj]; rfl
  refine ⟨?_, ?_, ?_, ?_, ?_, fun j hj => ?_⟩
  · rw [← packetByte_startMarker s (k + 1)]; exact hbyte 0 (by omega)
  · rw [hbyte 1 (by omega), packetByte_typeMarker]
  · rw [hbyte 4 (by omega), packetByte_number]
  · rw [hbyte 5 (by omega), packetByte_total]
  · rw [hbyte _ (by omega), packetByte_endMarker hg.cfgOk]
  · rw [frameOf_getElem? hk hj]
    exact ⟨rfl, rfl, rfl⟩

end Sys2Proof.Machine

/-! ## The family of 10_state.md

The invariant of R37 at reset and under every step (O9, O12, O13), the configuration (O11), and who writes each
register and the FrameBuffer (O22). -/

namespace Sys2Proof.Machine

/-! ### The registers and the FrameBuffer in good order (10_state.md R37) -/

/-- The clauses of `Good` about the configuration, the registers and the FrameBuffer: those that hold between any two
packets of an `UPLOAD` too. -/
structure RegistersOk (s : State) : Prop where
  cfgOk : s.cfg.WellFormed
  countOk : s.ledCount.toNat ≤ s.cfg.ledMax
  totalOk : s.totalPkts.toNat = s.cfg.totalPackets s.ledCount.toNat
  fbOk : Memory.wf s.fb
  fbComplete : FbComplete s

theorem Good.registersOk {s : State} (h : Good s) : RegistersOk s := { h with }

theorem RegistersOk.good_of_idle {s : State} (h : RegistersOk s) (hidle : s.upload = none) : Good s :=
  { h with
    uploadOk := fun u hu => by simp [hidle] at hu
    quiet := fun hu => by simp [hidle] at hu }

theorem RegistersOk.good_of_uploading {s : State} {u : Upload} (h : RegistersOk s) (hup : s.upload = some u)
    (hu : UploadOk s u) (hrsp : s.rsp = none) : Good s :=
  { h with
    uploadOk := fun v hv => by rw [hup] at hv; cases hv; exact hu
    quiet := fun _ => hrsp }

/-- With no LED there is no packet, in every configuration of R8. -/
theorem totalPackets_zero {c : Config} (hw : c.WellFormed) : c.totalPackets 0 = 0 := by
  obtain ⟨⟨hmin, _⟩, _⟩ := hw
  unfold Config.totalPackets Config.payloadCap overhead
  exact Nat.div_eq_of_lt (by omega)

theorem totalPackets_mono (c : Config) {m n : Nat} (h : m ≤ n) : c.totalPackets m ≤ c.totalPackets n :=
  Nat.div_le_div_right (by omega)

/-- Condition (c) of R8: the number of packets of every allowed count fits the register. -/
theorem totalPackets_lt {c : Config} (hw : c.WellFormed) {n : Nat} (h : n ≤ c.ledMax) : c.totalPackets n < 256 :=
  Nat.lt_succ_of_le ((totalPackets_mono c h).trans hw.2.2)

theorem registersOk_empty {s : State} (hw : s.cfg.WellFormed) (hcount : s.ledCount = 0#16) (htotal : s.totalPkts = 0#8)
    (hfb : s.fb = []) : RegistersOk s where
  cfgOk := hw
  countOk := by simp [hcount]
  totalOk := by simp [hcount, htotal, totalPackets_zero hw]
  fbOk := hfb ▸ wf_nil
  fbComplete := fun i => by simp [readEntry, hfb, hcount]

/-- Writing visible entries. -/
theorem RegistersOk.writeEntries {s : State} (h : RegistersOk s) {lo hi : Nat} (f : Nat → Hsv)
    (hhi : hi ≤ s.ledCount.toNat) : RegistersOk (writeEntries lo hi f s) :=
  { h with
    fbOk := setRange_wf _ _ _ h.fbOk
    fbComplete := fun i => by
      rw [readEntry_writeEntries, writeEntries_ledCount]
      split
      · simp only [Option.isSome_some, true_iff]; omega
      · exact h.fbComplete i }

/-- Setting the count and writing at least the entries that become visible. -/
theorem RegistersOk.resized {s : State} (h : RegistersOk s) {n : Half} {lo : Nat} (f : Nat → Hsv)
    (hn : n.toNat ≤ s.cfg.ledMax) (hlo : lo ≤ s.ledCount.toNat) :
    RegistersOk (Machine.writeEntries lo n.toNat f (setCount n s)) where
  cfgOk := h.cfgOk
  countOk := hn
  totalOk := by
    have hfits := totalPackets_lt h.cfgOk hn
    simpa using hfits
  fbOk := setRange_wf _ _ _ (keepBelow_wf _ h.fbOk)
  fbComplete := fun i => by
    rw [readEntry_writeEntries, readEntry_setCount, writeEntries_ledCount, setCount_ledCount]
    by_cases hi : i < n.toNat
    · by_cases hlow : lo ≤ i
      · simp [hi, hlow]
      · simpa [hi, hlow] using (h.fbComplete i).mpr (by omega)
    · simp [hi]

/-! ### What a command other than `UPLOAD` stores -/

theorem ctlRegOf_bright {r : Half} (h : ctlRegOf r = some .bright) : r = 2#16 := by
  unfold ctlRegOf at h
  split at h <;> cases h
  exact BitVec.eq_of_toNat_eq ‹_›

theorem ctlRegOf_law {r : Half} (h : ctlRegOf r = some .law) : r = 3#16 := by
  unfold ctlRegOf at h
  split at h <;> cases h
  exact BitVec.eq_of_toNat_eq ‹_›

/-- `Stores s i t`: the registers and entries that the command `i`, run in `s`, may leave, as the state `t` in which it
then answers; one constructor per command that writes (42_framebuffer.md R162 to R170). -/
inductive Stores (s : State) : Instr → State → Prop where
  /-- a command that reads, that reports an error, or that is a silent no-op -/
  | nothing (i : Instr) : Stores s i s
  | bright (x : Half) (hx : x.toNat ≤ 255) : Stores s (.wrctl 2#16 x) (setBright (x.extractLsb' 0 8) s)
  | law (x : Half) (hx : x.toNat ≤ 1) : Stores s (.wrctl 3#16 x) (setLaw (x.extractLsb' 0 1) s)
  | setup (n : Half) (hn : n.toNat ≤ s.cfg.ledMax) :
      Stores s (.setup n) (writeEntries 0 n.toNat (fun _ => s.cfg.defaultHsv) (setCount n s))
  | resize (n : Half) (hn : n.toNat ≤ s.cfg.ledMax) :
      Stores s (.resize n) (writeEntries s.ledCount.toNat n.toNat (fun _ => s.cfg.resizeFill) (setCount n s))
  | setled (k : Half) (c : Hsv) (hk : k.toNat < s.ledCount.toNat) :
      Stores s (.setled k c) (writeEntries k.toNat (k.toNat + 1) (fun _ => c) s)
  | fill (c : Hsv) : Stores s (.fill c) (writeEntries 0 s.ledCount.toNat (fun _ => c) s)
  | fillr (start len : Half) (c : Hsv) :
      Stores s (.fillr start len c) (writeEntries start.toNat (rangeEnd start len s.ledCount) (fun _ => c) s)
  | rainbow (b : Half) (c : Hsv) :
      Stores s (.rainbow b c) (writeEntries 0 s.ledCount.toNat (rainbowEntry (hueStep b) c) s)

/-- The command `i` stores what it stores and then puts one response on the response channel. -/
def Answers (i : Instr) (s : State) : Prop :=
  ∃ t st data, Stores s i t ∧ exec i s = .next (respond st data t)

theorem answers_getled {s : State} {k : Half} (h : k.toNat < s.ledCount.toNat → (readEntry s k.toNat).isSome = true) :
    Answers (.getled k) s := by
  refine ⟨s, ?_⟩
  simp only [exec, execGetled]
  split
  next hk =>
    obtain ⟨c, hc⟩ := Option.isSome_iff_exists.mp (h hk)
    exact ⟨_, _, .nothing _, by rw [hc]⟩
  next => exact ⟨_, _, .nothing _, rfl⟩

theorem answers_wrctl (reg x : Half) (s : State) : Answers (.wrctl reg x) s := by
  unfold Answers
  simp only [exec, execWrctl]
  split
  next hreg =>
    rw [ctlRegOf_bright hreg]
    split
    next => exact ⟨_, _, _, .nothing _, rfl⟩
    next hx => exact ⟨_, _, _, .bright x (Nat.not_lt.mp hx), rfl⟩
  next hreg =>
    rw [ctlRegOf_law hreg]
    split
    next => exact ⟨_, _, _, .nothing _, rfl⟩
    next hx => exact ⟨_, _, _, .law x (Nat.not_lt.mp hx), rfl⟩
  all_goals exact ⟨_, _, _, .nothing _, rfl⟩

/-- All that a command other than `UPLOAD` can do: it stores and answers, or it is a `GETLED` of a visible entry that
holds no value. -/
theorem exec_cases {i : Instr} (hi : i ≠ .upload) (s : State) :
    Answers i s ∨
    ∃ k, i = .getled k ∧ k.toNat < s.ledCount.toNat ∧ readEntry s k.toNat = none ∧
      exec i s = .fault .unwrittenEntry := by
  cases i
  case upload => exact absurd rfl hi
  case getled k =>
    by_cases hbad : k.toNat < s.ledCount.toNat ∧ readEntry s k.toNat = none
    · exact .inr ⟨k, rfl, hbad.1, hbad.2, by simp only [exec, execGetled, hbad.1, hbad.2, if_true]⟩
    · exact .inl (answers_getled fun hk => Option.isSome_iff_ne_none.mpr fun hnone => hbad ⟨hk, hnone⟩)
  all_goals left
  case nop => exact ⟨_, _, _, .nothing _, rfl⟩
  case cvtrb => exact ⟨_, _, _, .nothing _, rfl⟩
  case cvtsp => exact ⟨_, _, _, .nothing _, rfl⟩
  case setup n =>
    unfold Answers
    simp only [exec, execSetup]
    split
    next => exact ⟨_, _, _, .nothing _, rfl⟩
    next hn => exact ⟨_, _, _, .setup n (Nat.not_lt.mp hn), rfl⟩
  case resize n =>
    unfold Answers
    simp only [exec, execResize]
    split
    next => exact ⟨_, _, _, .nothing _, rfl⟩
    next hn => exact ⟨_, _, _, .resize n (Nat.not_lt.mp hn), rfl⟩
  case setled k c =>
    unfold Answers
    simp only [exec, execSetled]
    split
    next hk => exact ⟨_, _, _, .setled k c hk, rfl⟩
    next => exact ⟨_, _, _, .nothing _, rfl⟩
  case fill c => exact ⟨_, _, _, .fill c, rfl⟩
  case fillr start len c => exact ⟨_, _, _, .fillr start len c, rfl⟩
  case rainbow b c => exact ⟨_, _, _, .rainbow b c, rfl⟩
  case rdctl reg =>
    unfold Answers
    simp only [exec, execRdctl]
    split
    next => exact ⟨_, _, _, .nothing _, rfl⟩
    next => exact ⟨_, _, _, .nothing _, rfl⟩
  case wrctl reg x => exact answers_wrctl reg x s

theorem stores_of_exec {i : Instr} {s t : State} (hi : i ≠ .upload) (h : exec i s = .next t) :
    ∃ t' st data, Stores s i t' ∧ t = respond st data t' := by
  obtain ⟨t', st, data, hstores, hexec⟩ | ⟨_, _, _, _, hfault⟩ := exec_cases hi s
  · rw [hexec] at h; cases h; exact ⟨t', st, data, hstores, rfl⟩
  · rw [hfault] at h; cases h

section Stores

variable {s t : State} {i : Instr}

theorem Stores.registersOk (h : Stores s i t) (hs : RegistersOk s) : RegistersOk t := by
  cases h with
  | nothing => exact hs
  | bright => exact { hs with }
  | law => exact { hs with }
  | setup n hn => exact hs.resized _ hn (Nat.zero_le _)
  | resize n hn => exact hs.resized _ hn le_rfl
  | setled k c hk => exact hs.writeEntries _ hk
  | fill => exact hs.writeEntries _ le_rfl
  | fillr => exact hs.writeEntries _ (Nat.min_le_right _ _)
  | rainbow => exact hs.writeEntries _ le_rfl

/-- The writers of `LEDCOUNT` and `TOTALPKTS` (R25, R26). -/
theorem Stores.count_writers (h : Stores s i t) (hne : t.ledCount ≠ s.ledCount ∨ t.totalPkts ≠ s.totalPkts) :
    ∃ n, i = .setup n ∨ i = .resize n := by
  cases h with
  | setup n => exact ⟨n, .inl rfl⟩
  | resize n => exact ⟨n, .inr rfl⟩
  | _ => simp at hne

/-- The writer of `BRIGHT` (R27). -/
theorem Stores.bright_writer (h : Stores s i t) (hne : t.bright ≠ s.bright) :
    ∃ x, i = .wrctl 2#16 x ∧ x.toNat ≤ 255 ∧ t.bright.toNat = x.toNat := by
  cases h with
  | bright x hx => exact ⟨x, rfl, hx, by simp; omega⟩
  | _ => simp at hne

/-- The writer of `LAW` (R28). -/
theorem Stores.law_writer (h : Stores s i t) (hne : t.law ≠ s.law) :
    ∃ x, i = .wrctl 3#16 x ∧ x.toNat ≤ 1 ∧ t.law.toNat = x.toNat := by
  cases h with
  | law x hx => exact ⟨x, rfl, hx, by simp; omega⟩
  | _ => simp at hne

/-- The writers of entry `k` of the FrameBuffer (20_memory.md R50(a)). -/
theorem Stores.entry_writers (h : Stores s i t) {k : Nat} (hne : readEntry t k ≠ readEntry s k) :
    (∃ n, i = .setup n) ∨ (∃ n, i = .resize n) ∨ (∃ c, i = .setled (BitVec.ofNat 16 k) c) ∨ (∃ c, i = .fill c) ∨
      (∃ a n c, i = .fillr a n c) ∨ (∃ b c, i = .rainbow b c) := by
  cases h with
  | setup n => simp
  | resize n => simp
  | setled j c =>
    have hk : k = j.toNat := by
      rw [readEntry_writeEntries] at hne
      by_contra hkj
      exact hne (if_neg (by omega))
    simp [hk]
  | fill c => simp
  | fillr a n c => simp
  | rainbow b c => simp
  | _ => simp at hne

end Stores

/-! ### What an `UPLOAD` can change, wherever it starts or stops -/

/-- Nothing but the transmit side and the response channel differs: the frame of an `UPLOAD`. -/
def TransmitOnly (s t : State) : Prop :=
  t = { s with upload := t.upload, rsp := t.rsp, txRoom := t.txRoom, txr := t.txr, tx := t.tx }

section TransmitOnly

variable {s t : State}

theorem TransmitOnly.trans {s' : State} (h : TransmitOnly s s') (h' : TransmitOnly s' t) : TransmitOnly s t := by
  unfold TransmitOnly at *
  rw [h] at h'
  exact h'

theorem TransmitOnly.cfg (h : TransmitOnly s t) : t.cfg = s.cfg := by rw [h]

theorem TransmitOnly.ledCount (h : TransmitOnly s t) : t.ledCount = s.ledCount := by rw [h]

theorem TransmitOnly.totalPkts (h : TransmitOnly s t) : t.totalPkts = s.totalPkts := by rw [h]

theorem TransmitOnly.bright (h : TransmitOnly s t) : t.bright = s.bright := by rw [h]

theorem TransmitOnly.law (h : TransmitOnly s t) : t.law = s.law := by rw [h]

theorem TransmitOnly.readEntry (h : TransmitOnly s t) (k : Nat) : readEntry t k = readEntry s k := by rw [h]; rfl

theorem TransmitOnly.registersOk (h : TransmitOnly s t) (hs : RegistersOk s) : RegistersOk t := by
  rw [h]
  exact { hs with }

theorem TransmitOnly.uploadOk (h : TransmitOnly s t) {u : Upload} (hu : UploadOk s u) : UploadOk t u := by
  rw [h]
  exact { hu with }

end TransmitOnly

/-- A packet with more to come, after which an entry of the next packet holds no value. -/
theorem frameLoop_succ_faults {s s1 : State} {u : Upload} {failed : Byte} {k : Nat}
    (h : sendPacket s u = .returned s1 failed) (hb : buildPacket s1 (u.seq + 1#8) u.cur failed = none) :
    frameLoop (k + 1) s u = .fault .unwrittenEntry := by
  rw [frameLoop, h]; simp only [hb]

theorem frameLoop_transmitOnly (n : Nat) {s t : State} {u : Upload} (h : frameLoop n s u = .next t) :
    TransmitOnly s t := by
  induction n generalizing s u with
  | zero =>
    obtain ⟨hwait, _⟩ | ⟨r, rest, _, _, hret⟩ := sendPacket_cases s u
    · rw [frameLoop_waits _ hwait] at h; cases h; rfl
    · rw [frameLoop_zero_returns hret] at h; cases h; rfl
  | succ n ih =>
    obtain ⟨hwait, _⟩ | ⟨r, rest, _, _, hret⟩ := sendPacket_cases s u
    · rw [frameLoop_waits _ hwait] at h; cases h; rfl
    · have hsent : TransmitOnly s { handOver s u with txr := rest } := rfl
      cases hbuild : buildPacket { handOver s u with txr := rest } (u.seq + 1#8) u.cur (countFailure r u.failed) with
      | none => rw [frameLoop_succ_faults hret hbuild] at h; cases h
      | some v => rw [frameLoop_succ_returns hret hbuild] at h; exact hsent.trans (ih h)

theorem execUpload_transmitOnly {s t : State} (h : exec .upload s = .next t) : TransmitOnly s t := by
  simp only [exec, execUpload] at h
  split at h
  · cases h; rfl
  · split at h
    · exact frameLoop_transmitOnly _ h
    · cases h

/-! ### An `UPLOAD` from a good state -/

theorem UploadOk.advance {s : State} {u : Upload} (h : UploadOk s u) : UploadOk s (advance s u) :=
  { h with posOk := advance_pos_le s h.posOk }

/-- Where the block waits for the Transport, it waits in a good state. -/
theorem good_of_waiting {s : State} {u : Upload} (hs : RegistersOk s) (hu : UploadOk s u) (hrsp : s.rsp = none) :
    Good { handOver s u with upload := some (advance s u) } :=
  have hsent : TransmitOnly s { handOver s u with upload := some (advance s u) } := rfl
  (hsent.registersOk hs).good_of_uploading rfl (hsent.uploadOk hu.advance) hrsp

theorem good_endFrame {s : State} (hs : RegistersOk s) (failed : Byte) : Good (endFrame failed s) :=
  have hend : TransmitOnly s (endFrame failed s) := rfl
  (hend.registersOk hs).good_of_idle rfl

/-- From a packet of the frame on, the frame loop never faults, and it ends or waits in a good state. -/
theorem frameLoop_good (n : Nat) {s : State} {u : Upload} (hs : RegistersOk s) (hu : UploadOk s u)
    (hrsp : s.rsp = none) (hn : u.seq.toNat + n = s.totalPkts.toNat) : ∃ t, frameLoop n s u = .next t ∧ Good t := by
  induction n generalizing s u with
  | zero =>
    obtain ⟨hwait, _⟩ | ⟨r, rest, _, _, hret⟩ := sendPacket_cases s u
    · exact ⟨_, frameLoop_waits _ hwait, good_of_waiting hs hu hrsp⟩
    · have hsent : TransmitOnly s { handOver s u with txr := rest } := rfl
      exact ⟨_, frameLoop_zero_returns hret, good_endFrame (hsent.registersOk hs) _⟩
  | succ n ih =>
    obtain ⟨hwait, _⟩ | ⟨r, rest, _, _, hret⟩ := sendPacket_cases s u
    · exact ⟨_, frameLoop_waits _ hwait, good_of_waiting hs hu hrsp⟩
    · have hsent : TransmitOnly s { handOver s u with txr := rest } := rfl
      have hs' := hsent.registersOk hs
      obtain ⟨v, hbuild, hv, hseq, _, _⟩ := buildPacket_next hs'.cfgOk hs'.fbComplete (hsent.uploadOk hu)
        (by simp only [handOver_totalPkts]; omega) r
      rw [frameLoop_succ_returns hret hbuild]
      exact ih hs' hv hrsp (by simp only [handOver_totalPkts]; omega)

/-- The first packet of a frame is built, and it is the one of the closed form. -/
theorem buildPacket_first {s : State} (hs : RegistersOk s) (htotal : 1 ≤ s.totalPkts.toNat) :
    ∃ u, buildPacket s 1#8 0#16 0#8 = some u ∧ UploadOk s u ∧ u.seq.toNat = 1 := by
  obtain ⟨u, hbuild, hbuilt⟩ := buildPacket_spec hs.cfgOk (seq := 1#8) (failed := 0#8) (cur := 0#16) (by decide)
    (by simp) (fun i hi => (hs.fbComplete i).mpr (by omega))
  exact ⟨u, hbuild, hbuilt.uploadOk (by decide) htotal (by decide), hbuilt.seq⟩

theorem execUpload_good {s : State} (hs : RegistersOk s) (hrsp : s.rsp = none) :
    ∃ t, exec .upload s = .next t ∧ Good t := by
  simp only [exec, execUpload]
  cases htotal : s.totalPkts.toNat with
  | zero => exact ⟨_, rfl, good_endFrame hs _⟩
  | succ n =>
    obtain ⟨u, hbuild, hu, hseq⟩ := buildPacket_first hs (by omega)
    simp only [hbuild]
    exact frameLoop_good n hs hu hrsp (by omega)

/-! ### A step from a good state -/

theorem exec_good {s : State} (hs : RegistersOk s) (hidle : s.upload = none) (hrsp : s.rsp = none) (i : Instr) :
    ∃ t, exec i s = .next t ∧ Good t := by
  by_cases hi : i = .upload
  · rw [hi]; exact execUpload_good hs hrsp
  · obtain ⟨t, st, data, hstores, hexec⟩ | ⟨k, _, hvisible, hnone, _⟩ := exec_cases hi s
    · have hanswered : TransmitOnly t (respond st data t) := rfl
      have hlines := (exec_sameLines hi hexec).1
      exact ⟨_, hexec, (hanswered.registersOk (hstores.registersOk hs)).good_of_idle (hlines.upload.trans hidle)⟩
    · have hsome := (hs.fbComplete _).mpr hvisible
      simp [hnone] at hsome

theorem runWord_good {s : State} (hs : RegistersOk s) (hidle : s.upload = none) (hrsp : s.rsp = none) (w : CmdWord) :
    ∃ t, runWord w s = .next t ∧ Good t := by
  unfold runWord
  split
  next i _ => exact exec_good hs hidle hrsp i
  next e _ =>
    have hraised : TransmitOnly s (raise (illegalStatus e) s) := rfl
    exact ⟨_, rfl, (hraised.registersOk hs).good_of_idle hidle⟩

theorem resumeUpload_good {s : State} {u : Upload} (hs : RegistersOk s) (hu : UploadOk s u) (hrsp : s.rsp = none) :
    ∃ t, resumeUpload u s = .next t ∧ Good t :=
  frameLoop_good _ hs hu hrsp (by have := hu.seqHigh; omega)

theorem resetBlock_good {s : State} (hw : s.cfg.WellFormed) : Good (resetBlock s) :=
  have hempty : RegistersOk (resetBlock s) := registersOk_empty hw rfl rfl rfl
  hempty.good_of_idle rfl

theorem step_resetting {s : State} (hw : s.cfg.WellFormed) (hrst : s.rst = true) : step s = .next (resetBlock s) := by
  simp only [step, if_pos hw, if_pos hrst]

/-- A response the host does not take holds the block (30_encoding.md R83). -/
theorem step_held {s : State} {r : RspWord} (hw : s.cfg.WellFormed) (hrst : s.rst = false) (hrsp : s.rsp = some r)
    (hready : s.rspReady = false) : step s = .next s := by
  simp [step, hw, hrst, deliver_held hready, act, activity, hrsp]

/-- With no `UPLOAD` and no command word the step only hands over a pending response (30_encoding.md R83). -/
theorem step_idle {s : State} (hw : s.cfg.WellFormed) (hrst : s.rst = false) (hfree : s.rsp = none ∨ s.rspReady = true)
    (hidle : s.upload = none) (hcmd : s.cmd = []) : step s = .next (accepted s []) := by
  simp [step, hw, hrst, deliver_of_free hfree, act, activity, hidle, hcmd, accepted]

/-- The invariant and progress in one: every good state has a next state, and that is good. -/
theorem step_good {s : State} (h : Good s) : ∃ t, step s = .next t ∧ Good t := by
  have hw := h.cfgOk
  cases hrst : s.rst with
  | true => exact ⟨_, step_resetting hw hrst, resetBlock_good hw⟩
  | false =>
    cases hup : s.upload with
    | some u =>
      have hrsp := h.quiet (by simp [hup])
      rw [step_resuming hw hrst hrsp hup]
      exact resumeUpload_good h.registersOk (h.uploadOk u hup) hrsp
    | none =>
      have hok (rest : List CmdWord) : RegistersOk (accepted s rest) := { h with }
      by_cases hfree : s.rsp = none ∨ s.rspReady = true
      · cases hcmd : s.cmd with
        | nil => exact ⟨_, step_idle hw hrst hfree hup hcmd, (hok []).good_of_idle hup⟩
        | cons w rest =>
          rw [step_accepting ⟨hw, hrst, hfree, hup, hcmd⟩]
          exact runWord_good (hok rest) hup rfl w
      · rw [not_or] at hfree
        obtain ⟨r, hrsp⟩ := Option.ne_none_iff_exists'.mp hfree.1
        exact ⟨s, step_held hw hrst hrsp (by simpa using hfree.2), h⟩

/-- Settles O12: `step_good` gives the one next state. -/
theorem everyStepKeepsGoodStatesGood : Obligations.EveryStepKeepsGoodStatesGood := by
  intro s t hs hstep
  obtain ⟨t', hstep', ht'⟩ := step_good hs
  rw [hstep] at hstep'
  cases hstep'
  exact ht'

/-- Settles O13: by `step_good`, the invariant rules out the one fault and the one refusal. -/
theorem goodStatesNeverStop : Obligations.GoodStatesNeverStop := fun _ hs =>
  let ⟨t, hstep, _⟩ := step_good hs
  ⟨t, hstep⟩

/-- Settles O9: with no LED there is no packet and no entry, and no `UPLOAD` runs. -/
theorem resetStateIsGood : Obligations.ResetStateIsGood :=
  have hreset (cfg : Config) (hw : cfg.WellFormed) : Good (State.resetWith cfg) :=
    (registersOk_empty hw rfl rfl rfl).good_of_idle rfl
  ⟨hreset, hreset _ default_wellFormed⟩

/-! ### The configuration (10_state.md R35) -/

theorem exec_cfg {i : Instr} {s t : State} (h : exec i s = .next t) : t.cfg = s.cfg := by
  by_cases hi : i = .upload
  · rw [hi] at h; exact (execUpload_transmitOnly h).cfg
  · exact (exec_sameLines hi h).1.cfg

theorem runWord_cfg {w : CmdWord} {s t : State} (h : runWord w s = .next t) : t.cfg = s.cfg := by
  unfold runWord at h
  split at h
  · exact exec_cfg h
  · cases h; rfl

/-- Settles O11, over all that a step can do: no command stores to the configuration, and neither does reset. -/
theorem configurationNeverChanges : Obligations.ConfigurationNeverChanges := by
  intro s t hstep
  obtain ⟨_, hreset | hheld | hresumed | hidle | haccepted⟩ := step_cases hstep
  · rw [hreset.2, resetBlock_cfg]
  · obtain ⟨_, _, _, rfl⟩ := hheld
    rfl
  · obtain ⟨_, _, u, _, hrun⟩ := hresumed
    exact (frameLoop_transmitOnly _ hrun).cfg
  · obtain ⟨_, _, _, _, rfl⟩ := hidle
    rfl
  · obtain ⟨w, rest, _, hrun⟩ := haccepted
    exact (runWord_cfg hrun).trans (accepted_cfg s rest)

/-! ### Who writes what (10_state.md R25 to R28; 20_memory.md R50(a)) -/

theorem SameLines.transmit_unchanged {s t : State} (h : SameLines s t) :
    ¬ (t.tx ≠ s.tx ∨ t.upload ≠ s.upload ∨ t.txr ≠ s.txr) := by
  simp [h.tx, h.upload, h.txr]

/-- Settles O22: `UPLOAD` writes the transmit side alone, and every other command what `Stores` says. -/
theorem eachRegisterHasItsWriters : Obligations.EachRegisterHasItsWriters := by
  intro i s t h
  by_cases hi : i = .upload
  · rw [hi] at h
    have hsent := execUpload_transmitOnly h
    exact ⟨fun hne => absurd hne (by simp [hsent.ledCount, hsent.totalPkts]), fun hne => absurd hsent.bright hne,
      fun hne => absurd hsent.law hne, fun k hne => absurd (hsent.readEntry k) hne, fun _ => hi⟩
  · obtain ⟨t', st, data, hstores, rfl⟩ := stores_of_exec hi h
    have hkept := (exec_sameLines hi h).1.transmit_unchanged
    exact ⟨hstores.count_writers, hstores.bright_writer, hstores.law_writer, fun k => hstores.entry_writers,
      fun hne => absurd hne hkept⟩

end Sys2Proof.Machine

/-! ## The family of 20_memory.md

That no read has a side effect and every command but `UPLOAD` is idempotent (O23, O24), that an entry reads as it was
last written (O42), and that the payload of a frame is the converted strip (O56). -/

namespace Sys2Proof.Machine

/-! ### Reading commands (20_memory.md R55) -/

/-- A command that only reads stores nothing. -/
theorem Stores.eq_of_reads {s t : State} {i : Instr} (h : Stores s i t)
    (hi : i = .nop ∨ (∃ c, i = .cvtrb c) ∨ (∃ c, i = .cvtsp c) ∨ (∃ k, i = .getled k) ∨ (∃ r, i = .rdctl r)) :
    t = s := by
  cases h with
  | nothing => rfl
  | _ => simp at hi

/-- Settles O23: a reading command stores nothing before it answers, and `UPLOAD` changes the transmit side alone. -/
theorem readingCommandsChangeNothing : Obligations.ReadingCommandsChangeNothing := by
  refine fun i s t h => ⟨fun hi => ?_, fun hi => ?_⟩
  · have hne : i ≠ .upload := by rintro rfl; simp at hi
    obtain ⟨t', st, data, hstores, rfl⟩ := stores_of_exec hne h
    rw [hstores.eq_of_reads hi]
    rfl
  · rw [hi] at h
    exact execUpload_transmitOnly h

/-! ### Writing the same again -/

section Memory

variable {α : Type} {m : Memory α}

/-- An empty write into a memory that ends below it. -/
theorem setRange_self {n : Nat} (h : ∀ c ∈ m, c.1 < n) (f : Nat → α) : m.setRange n n f = m := by
  have hlow : m.filter (fun c => c.1 < n) = m := List.filter_eq_self.mpr fun c hc => by simpa using h c hc
  have hhigh : m.filter (fun c => n ≤ c.1) = [] := List.filter_eq_nil_iff.mpr fun c hc => by simpa using h c hc
  simp [Memory.setRange, Memory.span, hlow, hhigh]

/-- Writing the same range again changes nothing, in whatever order the cells are listed. -/
theorem setRange_setRange (lo hi : Nat) (f : Nat → α) : (m.setRange lo hi f).setRange lo hi f = m.setRange lo hi f := by
  have hspanLow : (Memory.span lo hi f).filter (fun c => c.1 < lo) = [] :=
    List.filter_eq_nil_iff.mpr fun c hc => by simpa using (mem_span hc).1
  have hspanHigh : (Memory.span lo hi f).filter (fun c => max lo hi ≤ c.1) = [] :=
    List.filter_eq_nil_iff.mpr fun c hc => by simpa using fun _ => (mem_span hc).2.1
  have hhighLow : (m.filter (fun c => max lo hi ≤ c.1)).filter (fun c => c.1 < lo) = [] :=
    List.filter_eq_nil_iff.mpr fun c hc => by
      have hhigh : max lo hi ≤ c.1 := by simpa using (List.mem_filter.mp hc).2
      simpa using (le_max_left lo hi).trans hhigh
  have hlowHigh : (m.filter (fun c => c.1 < lo)).filter (fun c => max lo hi ≤ c.1) = [] :=
    List.filter_eq_nil_iff.mpr fun c hc => by
      have hlow : c.1 < lo := by simpa using (List.mem_filter.mp hc).2
      simpa using fun hle => absurd hlow (Nat.not_lt.mpr hle)
  rw [Memory.setRange, Memory.setRange]
  simp only [List.filter_append, hspanLow, hspanHigh, hhighLow, hlowHigh, List.append_nil, List.nil_append,
    List.filter_filter, Bool.and_self]

theorem keepBelow_bound (m : Memory α) (n : Nat) : ∀ c ∈ m.keepBelow n, c.1 < n := fun c hc => by
  simpa using (List.mem_filter.mp hc).2

theorem keepBelow_of_bound {n : Nat} (h : ∀ c ∈ m, c.1 < n) : m.keepBelow n = m :=
  List.filter_eq_self.mpr fun c hc => by simpa using h c hc

/-- A write below `n` leaves nothing from `n` on where there was nothing. -/
theorem setRange_bound {n lo : Nat} (f : Nat → α) (h : ∀ c ∈ m, c.1 < n) : ∀ c ∈ m.setRange lo n f, c.1 < n := by
  intro c hc
  obtain hold | ⟨_, hnew, _⟩ := mem_setRange hc
  · exact h c hold
  · exact hnew

end Memory

theorem writeEntries_again (lo hi : Nat) (f : Nat → Hsv) (s : State) :
    writeEntries lo hi f (writeEntries lo hi f s) = writeEntries lo hi f s := by
  simp only [writeEntries, setRange_setRange]

/-- Setting the count to what it is, in the state a `SETUP` or `RESIZE` leaves, forgets no entry. -/
theorem setCount_resized (n : Half) (lo : Nat) (f : Nat → Hsv) (s : State) :
    setCount n (writeEntries lo n.toNat f (setCount n s)) = writeEntries lo n.toNat f (setCount n s) := by
  have hkept := keepBelow_of_bound (setRange_bound (lo := lo) f (keepBelow_bound s.fb n.toNat))
  simp only [setCount, writeEntries, hkept]

/-- No entry is new to a `RESIZE` to the present count. -/
theorem writeEntries_resized (n : Half) (lo : Nat) (f g : Nat → Hsv) (s : State) :
    writeEntries n.toNat n.toNat g (writeEntries lo n.toNat f (setCount n s)) =
      writeEntries lo n.toNat f (setCount n s) := by
  have hsame := setRange_self (setRange_bound (lo := lo) f (keepBelow_bound s.fb n.toNat)) g
  simp only [setCount, writeEntries, hsame]

/-! ### Idempotence (20_memory.md R55) -/

/-- No command but `UPLOAD` looks at the response channel: what stands there is overwritten. -/
theorem exec_respond {i : Instr} (hi : i ≠ .upload) (st : Status) (data : BitVec 24) (s : State) :
    exec i (respond st data s) = exec i s := by
  cases i with
  | upload => exact absurd rfl hi
  | _ => rfl

theorem exec_wrctl_bright {x : Half} (hx : x.toNat ≤ 255) (s : State) :
    exec (.wrctl 2#16 x) s = .next (respond .ok 0#24 (setBright (x.extractLsb' 0 8) s)) :=
  if_neg (Nat.not_lt.mpr hx)

theorem exec_wrctl_law {x : Half} (hx : x.toNat ≤ 1) (s : State) :
    exec (.wrctl 3#16 x) s = .next (respond .ok 0#24 (setLaw (x.extractLsb' 0 1) s)) :=
  if_neg (Nat.not_lt.mpr hx)

/-- A command finds what it has stored and stores and answers the same once more. -/
theorem Stores.exec_again {s t : State} {i : Instr} (h : Stores s i t) : exec i t = exec i s := by
  cases h with
  | nothing => rfl
  | bright x hx => rw [exec_wrctl_bright hx, exec_wrctl_bright hx]; rfl
  | law x hx => rw [exec_wrctl_law hx, exec_wrctl_law hx]; rfl
  | setup n hn =>
    simp only [exec, execSetup, writeEntries_cfg, setCount_cfg, Nat.not_lt.mpr hn, if_false, setCount_resized,
      writeEntries_again]
  | resize n hn =>
    simp only [exec, execResize, writeEntries_cfg, setCount_cfg, Nat.not_lt.mpr hn, if_false, setCount_resized,
      writeEntries_ledCount, setCount_ledCount, writeEntries_resized]
  | setled k c hk => simp only [exec, execSetled, writeEntries_ledCount, hk, if_true, writeEntries_again]
  | fill c => simp only [exec, execFill, writeEntries_ledCount, writeEntries_again]
  | fillr start len c => simp only [exec, execFillr, writeEntries_ledCount, writeEntries_again]
  | rainbow b c => simp only [exec, execRainbow, writeEntries_ledCount, writeEntries_again]

/-- Settles O24: the response of the first run is not looked at, and what it stored is stored again. -/
theorem commandsAreIdempotent : Obligations.CommandsAreIdempotent := by
  intro i s t hi h
  obtain ⟨t', st, data, hstores, rfl⟩ := stores_of_exec hi h
  calc exec i (respond st data t')
      = exec i t' := exec_respond hi st data t'
    _ = exec i s := hstores.exec_again
    _ = .next (respond st data t') := h

/-! ### One entry (20_memory.md R60; 42_framebuffer.md R164, R165) -/

theorem exec_setled_visible {k : Half} (c : Hsv) {s : State} (hk : k.toNat < s.ledCount.toNat) :
    exec (.setled k c) s = .next (respond .ok 0#24 (writeEntries k.toNat (k.toNat + 1) (fun _ => c) s)) :=
  if_pos hk

theorem exec_getled_visible {k : Half} {c : Hsv} {s : State} (hk : k.toNat < s.ledCount.toNat)
    (hc : readEntry s k.toNat = some c) : exec (.getled k) s = .next (respond .ok (packHsv c) s) := by
  simp only [exec, execGetled, hk, if_true, hc]

theorem exec_getled_hidden {k : Half} {s : State} (hk : ¬ k.toNat < s.ledCount.toNat) :
    exec (.getled k) s = .next (raise .errIndex s) :=
  if_neg hk

theorem exec_getled_unwritten {k : Half} {s : State} (hk : k.toNat < s.ledCount.toNat)
    (hnone : readEntry s k.toNat = none) : exec (.getled k) s = .fault .unwrittenEntry := by
  simp only [exec, execGetled, hk, if_true, hnone]

/-- The response word of a colour, byte by byte (R14). -/
theorem responseWord_packHsv (c : Hsv) : responseWord .ok (packHsv c) = 0x00#8 ++ c.hue ++ c.sat ++ c.val := by
  have hbytes : packHsv c = c.hue ++ (c.sat ++ c.val) := by
    rw [packHsv, BitVec.append_assoc]
    rfl
  rw [hbytes, BitVec.append_assoc (x₁ := 0x00#8 ++ c.hue), BitVec.append_assoc]
  rfl

/-- A command that changes nothing but the response is told by its response word alone. -/
theorem next_respond_iff {st : Status} {data : BitVec 24} {s : State} {r : RspWord} :
    (Host.Outcome.next (respond st data s) : Result) = .next { s with rsp := some r } ↔ responseWord st data = r := by
  simp [respond]

/-- The answer of `GETLED` depends on the count and on the entry it names alone. -/
theorem exec_getled_congr {k : Half} {s t : State} (hcount : t.ledCount = s.ledCount)
    (hentry : readEntry t k.toNat = readEntry s k.toNat) {r : RspWord}
    (h : exec (.getled k) s = .next { s with rsp := some r }) :
    exec (.getled k) t = .next { t with rsp := some r } := by
  by_cases hk : k.toNat < s.ledCount.toNat
  · cases hc : readEntry s k.toNat with
    | none => rw [exec_getled_unwritten hk hc] at h; cases h
    | some c =>
      rw [exec_getled_visible hk hc, next_respond_iff] at h
      rwa [exec_getled_visible (hcount ▸ hk) (hentry.trans hc), next_respond_iff]
  · rw [exec_getled_hidden hk, raise, next_respond_iff] at h
    rwa [exec_getled_hidden (hcount ▸ hk), raise, next_respond_iff]

/-- Settles O42: `SETLED` writes its own entry, which a `GETLED` finds there, and leaves every other. -/
theorem getledReturnsTheLatestWrite : Obligations.GetledReturnsTheLatestWrite := by
  intro a b c s t ha h
  rw [exec_setled_visible c ha] at h
  cases h
  refine ⟨?_, fun hne r hread => exec_getled_congr ?_ ?_ hread⟩
  · rw [← responseWord_packHsv]
    exact exec_getled_visible ha (by simp)
  · rfl
  · have hother : b.toNat ≠ a.toNat := fun heq => hne (BitVec.eq_of_toNat_eq heq)
    rw [readEntry_respond, readEntry_writeEntries, if_neg (by omega)]

/-! ### The payload of a packet (43_packetizer.md R203, R214, R215; 20_memory.md R52, R57) -/

/-- Every packet of the frame begins at a visible LED: `TOTALPKTS` packets are not more than the strip fills. -/
theorem packet_starts_visible {c : Config} (hw : c.WellFormed) {n k : Nat} (hk : k < c.totalPackets n) :
    k * c.ledsPerPacket < n := by
  have hcap : 3 ≤ c.payloadCap := by
    obtain ⟨⟨hmin, _⟩, _⟩ := hw
    unfold Config.payloadCap overhead
    omega
  have hfull : (k + 1) * c.payloadCap ≤ 3 * n + c.payloadCap - 1 :=
    (Nat.le_div_iff_mul_le (by omega)).mp hk
  have hcarried : 3 * (k * c.ledsPerPacket) ≤ k * c.payloadCap := by
    calc 3 * (k * c.ledsPerPacket) = k * (c.payloadCap / 3 * 3) := by rw [Config.ledsPerPacket]; ring
      _ ≤ k * c.payloadCap := Nat.mul_le_mul_left k (Nat.div_mul_le_self _ _)
  rw [Nat.succ_mul] at hfull
  omega

/-- No packet of the frame is without a triplet. -/
theorem tripletCount_pos {c : Config} (hw : c.WellFormed) {n k : Nat} (hk : k < c.totalPackets n) :
    1 ≤ tripletCount c n (k + 1) := by
  have hstart := packet_starts_visible hw hk
  obtain ⟨hper, _, _⟩ := triplets_fit hw
  unfold tripletCount
  rw [Nat.add_sub_cancel]
  omega

/-- The triplets of a packet end before its end marker. -/
theorem tripletCount_fits {c : Config} (hw : c.WellFormed) (n k : Nat) : 7 + 3 * tripletCount c n k ≤ c.maxBytes := by
  obtain ⟨_, hfit, _⟩ := triplets_fit hw
  have hle : tripletCount c n k ≤ c.ledsPerPacket := Nat.min_le_left _ _
  omega

theorem pixelOrBlack_of_readEntry {s : State} {i : Nat} {c : Hsv} (h : readEntry s i = some c) :
    pixelOrBlack s i = applyBright s.bright (convert s c) := by
  simp [pixelOrBlack, pixel, h]

section Payload

variable {s : State} (k : Nat)

@[simp] theorem packetByte_sizeHigh :
    packetByte s k 2 = BitVec.ofNat 8 (3 * tripletCount s.cfg s.ledCount.toNat k / 256) := rfl

@[simp] theorem packetByte_sizeLow :
    packetByte s k 3 = BitVec.ofNat 8 (3 * tripletCount s.cfg s.ledCount.toNat k % 256) :=
  BitVec.eq_of_toNat_eq (by simp [packetByte])

/-- Byte `ch` of triplet `j` of packet `k + 1`. -/
theorem packetByte_triplet (hw : s.cfg.WellFormed) {j ch : Nat}
    (hj : j < tripletCount s.cfg s.ledCount.toNat (k + 1)) (hch : ch < 3) :
    packetByte s (k + 1) (6 + 3 * j + ch) = channel (pixelOrBlack s (k * s.cfg.ledsPerPacket + j)) ch := by
  have hfit := tripletCount_fits hw s.ledCount.toNat (k + 1)
  have hled : (6 + 3 * j + ch - 6) / 3 = j := by omega
  have hchannel : (6 + 3 * j + ch - 6) % 3 = ch := by omega
  unfold packetByte
  iterate 7 rw [if_neg (by omega)]
  rw [if_pos (by omega), hled, hchannel, Nat.add_sub_cancel]

/-- Between the last triplet and the end marker. -/
theorem packetByte_slack {off : Nat} (hlow : 6 + 3 * tripletCount s.cfg s.ledCount.toNat k ≤ off)
    (hhigh : off + 1 < s.cfg.maxBytes) : packetByte s k off = 0x00#8 := by
  unfold packetByte
  iterate 8 rw [if_neg (by omega)]

end Payload

/-- Byte `j` of packet `k + 1` in the frame. -/
theorem frameOf_data {s : State} {k j : Nat} (hk : k < s.totalPkts.toNat) (hj : j < s.cfg.maxBytes) :
    (frameOf s)[k * s.cfg.maxBytes + j]?.map Beat.data = some (packetByte s (k + 1) j) := by
  rw [frameOf_getElem? hk hj]
  rfl

/-- Settles O56: the bytes of the closed form, region by region. -/
theorem payloadIsTheConvertedStrip : Obligations.PayloadIsTheConvertedStrip := by
  intro s t hg hroom hans hexec
  rw [execUpload_completes hg hroom hans] at hexec
  cases hexec
  refine ⟨frameOf s, rfl, fun k hk => ?_⟩
  have hw := hg.cfgOk
  have hpos := tripletCount_pos hw (hg.totalOk ▸ hk)
  have hfit := tripletCount_fits hw s.ledCount.toNat (k + 1)
  refine ⟨hpos, ?_, ?_, fun j hj => ?_, fun off hlow hhigh => ?_⟩
  · exact frameOf_data hk (by omega)
  · exact (frameOf_data hk (by omega)).trans (congrArg some (packetByte_sizeLow _))
  · have hin : j < tripletCount s.cfg s.ledCount.toNat (k + 1) := hj
    have hvisible : k * s.cfg.ledsPerPacket + j < s.ledCount.toNat := by
      have hle : tripletCount s.cfg s.ledCount.toNat (k + 1) ≤ s.ledCount.toNat - k * s.cfg.ledsPerPacket :=
        Nat.min_le_right _ _
      omega
    obtain ⟨c, hc⟩ := Option.isSome_iff_exists.mp ((hg.fbComplete _).mpr hvisible)
    have hbyte (ch : Nat) (hch : ch < 3) : (frameOf s)[k * s.cfg.maxBytes + (6 + 3 * j + ch)]?.map Beat.data =
        some (channel (applyBright s.bright (convert s c)) ch) := by
      rw [frameOf_data hk (by omega), packetByte_triplet k hw hin hch, pixelOrBlack_of_readEntry hc]
    exact ⟨c, hc, hbyte 0 (by omega), hbyte 1 (by omega), hbyte 2 (by omega)⟩
  · exact (frameOf_data hk (by omega)).trans (congrArg some (packetByte_slack _ hlow hhigh))

end Sys2Proof.Machine

/-! ## The family of 30_encoding.md

Decoding and encoding invert each other and the decoder rejects exactly the illegal words (O1 to O6), the outside world
keeps good states good (O15), what a step does with an accepted word, an illegal one and a pending response (O16, O17,
O18, O21), and that every word presented is answered once (O14). -/

namespace Sys2Proof

/-! ### The fields of packed words (30_encoding.md R84) -/

theorem packWord_inj {op op' : Byte} {a a' b b' : Half} {c c' : Hsv} :
    packWord op a b c = packWord op' a' b' c' ↔ op = op' ∧ a = a' ∧ b = b' ∧ c = c' := by
  constructor
  · intro h
    exact ⟨by simpa using congrArg fieldOp h, by simpa using congrArg fieldA h, by simpa using congrArg fieldB h,
      by simpa using congrArg fieldCol h⟩
  · rintro ⟨rfl, rfl, rfl, rfl⟩
    rfl

/-- The bits of a word that are set in a mask, field by field. -/
theorem packWord_and (op op' : Byte) (a a' b b' : Half) (c c' : Hsv) :
    packWord op a b c &&& packWord op' a' b' c' =
      packWord (op &&& op') (a &&& a') (b &&& b')
        { hue := c.hue &&& c'.hue, sat := c.sat &&& c'.sat, val := c.val &&& c'.val } := by
  simp only [packWord, ← BitVec.and_append]

theorem packWord_zero : packWord 0#8 0#16 0#16 noColour = 0#64 := by decide

/-! ### The must-be-zero bits, field by field (30_encoding.md R86, R89) -/

/-- A mask over the operand fields, the same for the three colour fields. -/
structure FieldMask where
  a : Half
  b : Half
  channel : Byte

/-- The mask as a set of bits of the word. -/
def FieldMask.word (m : FieldMask) : CmdWord :=
  packWord 0#8 m.a m.b { hue := m.channel, sat := m.channel, val := m.channel }

/-- The operand bits that a command of the opcode does not use. -/
def spareBits : Opcode → FieldMask
  | .nop => { a := 0xFFFF#16, b := 0xFFFF#16, channel := 0xFF#8 }
  | .cvtrb => { a := 0xFFFF#16, b := 0xFFFF#16, channel := 0#8 }
  | .cvtsp => { a := 0xFFFF#16, b := 0xFFFF#16, channel := 0#8 }
  | .setup => { a := 0#16, b := 0xFFFF#16, channel := 0xFF#8 }
  | .resize => { a := 0#16, b := 0xFFFF#16, channel := 0xFF#8 }
  | .setled => { a := 0#16, b := 0xFFFF#16, channel := 0#8 }
  | .getled => { a := 0#16, b := 0xFFFF#16, channel := 0xFF#8 }
  | .fill => { a := 0xFFFF#16, b := 0xFFFF#16, channel := 0#8 }
  | .fillr => { a := 0#16, b := 0#16, channel := 0#8 }
  | .rainbow => { a := 0xFFFF#16, b := 0xFF00#16, channel := 0#8 }
  | .rdctl => { a := 0#16, b := 0xFFFF#16, channel := 0xFF#8 }
  | .wrctl => { a := 0#16, b := 0#16, channel := 0xFF#8 }
  | .upload => { a := 0xFFFF#16, b := 0xFFFF#16, channel := 0xFF#8 }

/-- The must-be-zero set that the table of R89 lists is that of the spare bits. -/
theorem mbz_eq_spareBits : ∀ row ∈ opTable, row.mbz = (spareBits row.code).word := by decide

theorem packWord_and_mask_eq_zero_iff (m : FieldMask) (op : Byte) (a b : Half) (c : Hsv) :
    packWord op a b c &&& m.word = 0#64 ↔
      a &&& m.a = 0#16 ∧ b &&& m.b = 0#16 ∧
        c.hue &&& m.channel = 0#8 ∧ c.sat &&& m.channel = 0#8 ∧ c.val &&& m.channel = 0#8 := by
  rw [FieldMask.word, packWord_and, ← packWord_zero, packWord_inj]
  simp [noColour]

/-- The high byte of the field `b`, which is spare in `RAINBOW`, is zero exactly when the hue step is 0 to 255. -/
theorem and_highByte_eq_zero_iff (b : Half) : b &&& 0xFF00#16 = 0#16 ↔ b.toNat ≤ 255 := by
  have hmask : 0xFF00#16 = BitVec.allOnes 16 <<< 8 := by decide
  rw [hmask, ← BitVec.shiftLeft_ushiftRight, ← BitVec.toNat_inj, BitVec.toNat_shiftLeft, BitVec.toNat_ushiftRight,
    Nat.shiftLeft_eq, Nat.shiftRight_eq_div_pow, BitVec.toNat_ofNat]
  omega

theorem half_and_ones (x : Half) : x &&& 0xFFFF#16 = x := BitVec.and_allOnes

theorem byte_and_ones (x : Byte) : x &&& 0xFF#8 = x := BitVec.and_allOnes

/-- The fields of the encoding of what a row assembles are those of the word exactly where the spare bits are zero;
the high byte that `RAINBOW` does not use is in a field it uses, and there the command is to be well formed. -/
theorem spareBits_clear_iff {row : OpRow} (hrow : row ∈ opTable) (a b : Half) (c : Hsv) :
    packWord row.op a b c &&& (spareBits row.code).word = 0#64 ↔
      encode (assemble row.code (packWord row.op a b c)) = packWord row.op a b c ∧
        (assemble row.code (packWord row.op a b c)).WellFormed = true := by
  obtain ⟨h, s, v⟩ := c
  rw [packWord_and_mask_eq_zero_iff]
  fin_cases hrow <;>
    simp only [spareBits, assemble, encode, Instr.WellFormed, packWord_inj, fieldA_packWord, fieldB_packWord,
      fieldCol_packWord, noColour, Hsv.mk.injEq, half_and_ones, byte_and_ones, and_highByte_eq_zero_iff,
      BitVec.and_zero, eq_comm (a := 0#16), eq_comm (a := 0#8), true_and, and_true, decide_eq_true_eq]

/-- A word of a legal opcode has no must-be-zero bit set exactly when it is the encoding of the command that its row
assembles, and that command is well formed. -/
theorem mbz_clear_iff {row : OpRow} (hrow : row ∈ opTable) {w : CmdWord} (hop : row.op = fieldOp w) :
    w &&& row.mbz = 0#64 ↔ encode (assemble row.code w) = w ∧ (assemble row.code w).WellFormed = true := by
  have h := spareBits_clear_iff hrow (fieldA w) (fieldB w) (fieldCol w)
  rwa [hop, packWord_fields, ← mbz_eq_spareBits row hrow] at h

/-! ### What the decoder answers (30_encoding.md R88 to R92) -/

theorem lookupOp_of_mem : ∀ row ∈ opTable, lookupOp row.op = some row := by decide

theorem lookupOp_eq_some_iff {op : Byte} {row : OpRow} : lookupOp op = some row ↔ row ∈ opTable ∧ row.op = op :=
  ⟨lookupOp_some, fun ⟨hrow, hop⟩ => hop ▸ lookupOp_of_mem row hrow⟩

theorem decode_of_no_row {w : CmdWord} (h : ∀ row ∈ opTable, row.op ≠ fieldOp w) : decode w = .error .badOpcode := by
  have hnone : lookupOp (fieldOp w) = none := by simpa [lookupOp] using h
  rw [decode, hnone]

theorem decode_of_row {w : CmdWord} {row : OpRow} (hrow : row ∈ opTable) (hop : row.op = fieldOp w) :
    decode w = if w &&& row.mbz ≠ 0#64 then .error .badField else .ok (assemble row.code w) := by
  rw [decode, lookupOp_eq_some_iff.mpr ⟨hrow, hop⟩]

/-- The lemmas of Laws/PerInstr, put together. -/
theorem rowAndOperands (i : Instr) : Laws.RowAndOperands.Statement i := by
  cases i with
  | nop => exact Laws.RowAndOperands.nop
  | cvtrb col => exact Laws.RowAndOperands.cvtrb col
  | cvtsp col => exact Laws.RowAndOperands.cvtsp col
  | setup count => exact Laws.RowAndOperands.setup count
  | resize count => exact Laws.RowAndOperands.resize count
  | setled index col => exact Laws.RowAndOperands.setled index col
  | getled index => exact Laws.RowAndOperands.getled index
  | fill col => exact Laws.RowAndOperands.fill col
  | fillr start len col => exact Laws.RowAndOperands.fillr start len col
  | rainbow b col => exact Laws.RowAndOperands.rainbow b col
  | rdctl reg => exact Laws.RowAndOperands.rdctl reg
  | wrctl reg value => exact Laws.RowAndOperands.wrctl reg value
  | upload => exact Laws.RowAndOperands.upload

/-- A word decodes to a command exactly when that command is well formed and the word is its encoding. -/
theorem decode_eq_ok_iff {w : CmdWord} {i : Instr} : decode w = .ok i ↔ i.WellFormed = true ∧ encode i = w := by
  constructor
  · intro h
    by_cases hlegal : ∃ row ∈ opTable, row.op = fieldOp w
    · obtain ⟨row, hrow, hop⟩ := hlegal
      rw [decode_of_row hrow hop] at h
      split at h
      next => cases h
      next hclear =>
        cases h
        exact ((mbz_clear_iff hrow hop).mp (not_not.mp hclear)).symm
    · rw [decode_of_no_row (by simpa using hlegal)] at h
      cases h
  · rintro ⟨hwf, rfl⟩
    obtain ⟨row, hlookup, hassemble⟩ := rowAndOperands i
    obtain ⟨hrow, hop⟩ := lookupOp_eq_some_iff.mp hlookup
    have hclear := (mbz_clear_iff hrow hop).mpr (by rw [hassemble]; exact ⟨rfl, hwf⟩)
    rw [decode_of_row hrow hop, if_neg (not_not.mpr hclear), hassemble]

/-- Settles O1: an encoding sets no must-be-zero bit and selects the row of its command. -/
theorem decodeInvertsEncode : Obligations.DecodeInvertsEncode := fun _ hwf => decode_eq_ok_iff.mpr ⟨hwf, rfl⟩

/-- Settles O2: with its must-be-zero bits clear a word holds the fields of its command and nothing else. -/
theorem encodeInvertsDecode : Obligations.EncodeInvertsDecode := fun _ _ h => decode_eq_ok_iff.mp h

end Sys2Proof

namespace Sys2Proof.Machine

/-! ### Legal and illegal words (30_encoding.md R89 to R92) -/

/-- The table of the statements and that of the decoder list the same opcodes with the same must-be-zero bits. -/
theorem mbzTable_eq_opTable : mbzTable = opTable.map (fun row => (row.op.toNat, row.mbz)) := by decide

theorem opNat_eq_fieldOp (w : CmdWord) : opNat w = (fieldOp w).toNat := (fieldOp_toNat w).symm

theorem legalOp_iff {w : CmdWord} : LegalOp w ↔ ∃ row ∈ opTable, row.op = fieldOp w := by
  simp [LegalOp, mbzTable_eq_opTable, opNat_eq_fieldOp, BitVec.toNat_inj]

theorem strayBit_iff {w : CmdWord} : StrayBit w ↔ ∃ row ∈ opTable, row.op = fieldOp w ∧ w &&& row.mbz ≠ 0#64 := by
  simp [StrayBit, mbzTable_eq_opTable, opNat_eq_fieldOp, BitVec.toNat_inj]

/-- Opcodes are listed once, so the row of a word is the one that has a stray bit or has none. -/
theorem strayBit_iff_of_row {w : CmdWord} {row : OpRow} (hrow : row ∈ opTable) (hop : row.op = fieldOp w) :
    StrayBit w ↔ w &&& row.mbz ≠ 0#64 := by
  rw [strayBit_iff]
  constructor
  · rintro ⟨row', hrow', hop', hstray⟩
    have hsame : row' = row := Option.some.inj
      ((lookupOp_eq_some_iff.mpr ⟨hrow', hop'⟩).symm.trans (lookupOp_eq_some_iff.mpr ⟨hrow, hop⟩))
    exact hsame ▸ hstray
  · exact fun hstray => ⟨row, hrow, hop, hstray⟩

theorem decode_of_illegal {w : CmdWord} (h : ¬ LegalOp w) : decode w = .error .badOpcode :=
  decode_of_no_row (by simpa [legalOp_iff] using h)

theorem decode_of_stray {w : CmdWord} (hl : LegalOp w) (hs : StrayBit w) : decode w = .error .badField := by
  obtain ⟨row, hrow, hop⟩ := legalOp_iff.mp hl
  rw [decode_of_row hrow hop, if_pos ((strayBit_iff_of_row hrow hop).mp hs)]

/-- A word with neither fault is a command. -/
theorem decode_of_legal {w : CmdWord} (hl : LegalOp w) (hs : ¬ StrayBit w) : ∃ i, decode w = .ok i := by
  obtain ⟨row, hrow, hop⟩ := legalOp_iff.mp hl
  exact ⟨_, by rw [decode_of_row hrow hop, if_neg (mt (strayBit_iff_of_row hrow hop).mpr hs)]⟩

/-- Settles O3: of the three kinds of words the decoder answers each its own way. -/
theorem decoderRejectsExactlyTheIllegalWords : Obligations.DecoderRejectsExactlyTheIllegalWords := by
  intro w
  by_cases hl : LegalOp w
  · by_cases hs : StrayBit w
    · simp [decode_of_stray hl hs, hl, hs]
    · obtain ⟨i, hi⟩ := decode_of_legal hl hs
      simp [hi, hl, hs]
  · simp [decode_of_illegal hl, hl]

/-- Settles O4: `packWord_toNat` for each command. -/
theorem encodedWordHasTheValueOfItsFields : Obligations.EncodedWordHasTheValueOfItsFields := by
  intro i
  cases i <;> simp [encode, packWord_toNat, noColour]

/-- Settles O5: each word is the encoding of its command, and `decode_eq_ok_iff` gives the rest. -/
theorem workedEncodingsDecode : Obligations.WorkedEncodingsDecode := by
  intro p hp
  suffices h : p.2.WellFormed = true ∧ encode p.2 = p.1 from ⟨decode_eq_ok_iff.mpr h, h.2⟩
  revert p
  decide

theorem expand_wellFormed (p : Pseudo) : p.expand.WellFormed = true := by cases p <;> rfl

/-- Settles O6: `packWord_toNat` for the words with operands; no pseudo-command stands for a `RAINBOW`, so each is well
formed. -/
theorem pseudoCommandsAreSingleWords : Obligations.PseudoCommandsAreSingleWords := by
  intro x start len c
  refine ⟨?_, by decide, by decide, ?_, ?_, by decide, fun p => decode_eq_ok_iff.mpr ⟨expand_wellFormed p, rfl⟩⟩
  · simp [Pseudo.expand, encode, packWord_toNat, noColour]
  · simp [Pseudo.expand, encode, packWord_toNat, Nat.add_assoc]
  · simp [Pseudo.expand, encode, packWord_toNat, Nat.add_assoc]

/-! ### Every word is answered once (30_encoding.md R82) -/

/-- One command word is in progress or answered, and not both. -/
def InProgressOrAnswered (s : State) : Prop :=
  (s.upload.isSome = true ∧ s.rsp = none) ∨ (s.upload = none ∧ s.rsp.isSome = true)

/-- An `UPLOAD` that has not answered waits for the Transport; one that has answered has answered OK (43_packetizer.md
R216, R223). -/
def WaitsOrAnswersOk (s : State) : Prop :=
  (s.upload.isSome = true ∧ s.rsp = none) ∨ (s.upload = none ∧ ∃ data : BitVec 24, s.rsp = some (0x00#8 ++ data))

theorem WaitsOrAnswersOk.inProgressOrAnswered {s : State} (h : WaitsOrAnswersOk s) : InProgressOrAnswered s :=
  h.imp_right fun ⟨hidle, data, hrsp⟩ => ⟨hidle, by rw [hrsp]; rfl⟩

theorem waitsOrAnswersOk_endFrame (failed : Byte) (s : State) : WaitsOrAnswersOk (endFrame failed s) :=
  .inr ⟨rfl, _, rfl⟩

theorem frameLoop_waitsOrAnswersOk (n : Nat) {s t : State} {u : Upload} (hrsp : s.rsp = none)
    (h : frameLoop n s u = .next t) : WaitsOrAnswersOk t := by
  induction n generalizing s u with
  | zero =>
    obtain ⟨hwait, _⟩ | ⟨r, rest, _, _, hret⟩ := sendPacket_cases s u
    · rw [frameLoop_waits _ hwait] at h; cases h; exact .inl ⟨rfl, hrsp⟩
    · rw [frameLoop_zero_returns hret] at h; cases h; exact waitsOrAnswersOk_endFrame _ _
  | succ n ih =>
    obtain ⟨hwait, _⟩ | ⟨r, rest, _, _, hret⟩ := sendPacket_cases s u
    · rw [frameLoop_waits _ hwait] at h; cases h; exact .inl ⟨rfl, hrsp⟩
    · cases hbuild : buildPacket { handOver s u with txr := rest } (u.seq + 1#8) u.cur (countFailure r u.failed) with
      | none => rw [frameLoop_succ_faults hret hbuild] at h; cases h
      | some v => rw [frameLoop_succ_returns hret hbuild] at h; exact ih (s := { handOver s u with txr := rest }) hrsp h

theorem execUpload_waitsOrAnswersOk {s t : State} (hrsp : s.rsp = none) (h : exec .upload s = .next t) :
    WaitsOrAnswersOk t := by
  simp only [exec, execUpload] at h
  split at h
  · cases h; exact waitsOrAnswersOk_endFrame _ _
  · split at h
    · exact frameLoop_waitsOrAnswersOk _ hrsp h
    · cases h

/-- The one word that was taken off the command channel of `s` is in progress or answered in `t`; the words that wait
and the responses taken are the same in both. -/
structure HoldsTheWord (s t : State) : Prop where
  cmd : t.cmd = s.cmd
  rspTaken : t.rspTaken = s.rspTaken
  word : InProgressOrAnswered t

theorem TransmitOnly.cmd {s t : State} (h : TransmitOnly s t) : t.cmd = s.cmd := by rw [h]

theorem TransmitOnly.rspTaken {s t : State} (h : TransmitOnly s t) : t.rspTaken = s.rspTaken := by rw [h]

theorem HoldsTheWord.wordsAccounted {s t : State} (h : HoldsTheWord s t) :
    wordsAccounted t = s.cmd.length + 1 + s.rspTaken.length := by
  have hone : t.upload.toList.length + t.rsp.toList.length = 1 := by
    obtain ⟨hup, hrsp⟩ | ⟨hup, hrsp⟩ := h.word
    · obtain ⟨u, hu⟩ := Option.isSome_iff_exists.mp hup
      simp [hu, hrsp]
    · obtain ⟨r, hr⟩ := Option.isSome_iff_exists.mp hrsp
      simp [hup, hr]
  rw [Machine.wordsAccounted, h.cmd, h.rspTaken]
  omega

theorem exec_holdsTheWord {i : Instr} {s t : State} (hidle : s.upload = none) (hrsp : s.rsp = none)
    (h : exec i s = .next t) : HoldsTheWord s t := by
  by_cases hi : i = .upload
  · rw [hi] at h
    have hsent := execUpload_transmitOnly h
    exact ⟨hsent.cmd, hsent.rspTaken, (execUpload_waitsOrAnswersOk hrsp h).inProgressOrAnswered⟩
  · obtain ⟨hlines, hanswered⟩ := exec_sameLines hi h
    exact ⟨hlines.cmd, hlines.rspTaken, .inr ⟨hlines.upload.trans hidle, hanswered⟩⟩

theorem runWord_holdsTheWord {w : CmdWord} {s t : State} (hidle : s.upload = none) (hrsp : s.rsp = none)
    (h : runWord w s = .next t) : HoldsTheWord s t := by
  unfold runWord at h
  split at h
  · exact exec_holdsTheWord hidle hrsp h
  · cases h; exact ⟨rfl, rfl, .inr ⟨hidle, rfl⟩⟩

theorem resumeUpload_holdsTheWord {u : Upload} {s t : State} (hrsp : s.rsp = none)
    (h : resumeUpload u s = .next t) : HoldsTheWord s t :=
  have hsent := frameLoop_transmitOnly _ h
  ⟨hsent.cmd, hsent.rspTaken, (frameLoop_waitsOrAnswersOk _ hrsp h).inProgressOrAnswered⟩

/-- Settles O14, over all that a step with the reset line low can do. -/
theorem everyWordIsAnsweredOnce : Obligations.EveryWordIsAnsweredOnce := by
  intro s t hg hrst hstep
  obtain ⟨_, hreset | hheld | hresumed | hidle | haccepted⟩ := step_cases hstep
  · simp [hrst] at hreset
  · obtain ⟨_, _, _, rfl⟩ := hheld
    exact ⟨rfl, .inl rfl⟩
  · obtain ⟨_, _, u, hup, hrun⟩ := hresumed
    have hholds := resumeUpload_holdsTheWord rfl hrun
    refine ⟨?_, .inr hholds.rspTaken⟩
    rw [hholds.wordsAccounted]
    simp only [wordsAccounted, hup, Option.toList_some, List.length_append, List.length_singleton]
    omega
  · obtain ⟨_, _, hup, hcmd, rfl⟩ := hidle
    refine ⟨?_, .inr rfl⟩
    simp only [wordsAccounted, List.length_append, Option.toList_none, List.length_nil]
    omega
  · obtain ⟨w, rest, hacc, hrun⟩ := haccepted
    have hholds := runWord_holdsTheWord (s := accepted s rest) hacc.noUpload rfl hrun
    refine ⟨?_, .inr hholds.rspTaken⟩
    rw [hholds.wordsAccounted]
    simp only [wordsAccounted, hacc.cmdIs, hacc.noUpload, accepted_cmd, accepted_rspTaken, Option.toList_none,
      List.length_append, List.length_cons, List.length_nil]
    omega

/-! ### What the outside world does between two steps (30_encoding.md R80, R81; 43_packetizer.md R221, R222) -/

/-- No line of the outside world stands in the invariant. -/
theorem Good.withLines {s : State} (h : Good s) (rst : Bool) (cmd : List CmdWord) (rspReady : Bool)
    (txRoom : Option Nat) (txr : List SendResult) :
    Good { s with rst := rst, cmd := cmd, rspReady := rspReady, txRoom := txRoom, txr := txr } :=
  { h with uploadOk := fun u hu => { h.uploadOk u hu with } }

theorem awaitingResult_iff (s : State) :
    awaitingResult s = true ↔ ∃ u, s.upload = some u ∧ u.pos = s.cfg.maxBytes ∧ s.txr = [] := by
  cases hup : s.upload <;> simp [awaitingResult, hup]

theorem resultPulse_awaited {s : State} {u : Upload} (r : SendResult) (hup : s.upload = some u)
    (hpos : u.pos = s.cfg.maxBytes) (htxr : s.txr = []) : resultPulse r s = { s with txr := [r] } :=
  if_pos ((awaitingResult_iff s).mpr ⟨u, hup, hpos, htxr⟩)

/-- A result nobody waits for is ignored (43_packetizer.md R222). -/
theorem resultPulse_ignored {s : State} (r : SendResult)
    (h : ∀ u, s.upload = some u → u.pos = s.cfg.maxBytes → s.txr ≠ []) : resultPulse r s = s :=
  if_neg fun hawait =>
    have ⟨u, hup, hpos, htxr⟩ := (awaitingResult_iff s).mp hawait
    h u hup hpos htxr

theorem Good.resultPulse {s : State} (h : Good s) (r : SendResult) : Good (resultPulse r s) := by
  unfold Machine.resultPulse
  split
  · exact h.withLines _ _ _ _ [r]
  · exact h

/-- Settles O15: four operations drive one line each, and the result channel is heard only where it is awaited. -/
theorem outsideWorldKeepsGoodStatesGood : Obligations.OutsideWorldKeepsGoodStatesGood := by
  intro s w b room r h
  have hgood : Good (hostPresents w s) ∧ Good (hostReady b s) ∧ Good (driveReset b s) ∧ Good (transportTakes room s) ∧
      Good (resultPulse r s) :=
    ⟨h.withLines _ _ _ _ _, h.withLines _ _ _ _ _, h.withLines _ _ _ _ _, h.withLines _ _ _ _ _, h.resultPulse r⟩
  refine ⟨hgood, rfl, rfl, rfl, rfl, fun hidle => ?_, fun u hup hpos => ?_, fun u => resultPulse_awaited r,
    fun htxr => ?_⟩
  · exact resultPulse_ignored r fun v hv => by simp [hidle] at hv
  · exact resultPulse_ignored r fun v hv hfull => by
      rw [hup] at hv
      cases hv
      omega
  · exact resultPulse_ignored r fun _ _ _ => htxr

/-! ### What a step does with an accepted word (30_encoding.md R82, R83, R90 to R92) -/

theorem runWord_of_ok {w : CmdWord} {i : Instr} (h : decode w = .ok i) (s : State) : runWord w s = exec i s := by
  rw [runWord, h]

theorem runWord_of_error {w : CmdWord} {e : DecodeError} (h : decode w = .error e) (s : State) :
    runWord w s = .next (raise (illegalStatus e) s) := by
  rw [runWord, h]

/-- Settles O16: the decoder gives the command that an accepted word runs as. -/
theorem stepRunsTheDecodedCommand : Obligations.StepRunsTheDecodedCommand := fun s _ rest _ hacc hdec _ =>
  (step_accepting hacc).trans (runWord_of_ok hdec (accepted s rest))

/-- Settles O21: `step_held`, and `step_idle` where there is no response to hand over. -/
theorem pendingResponseHoldsTheBlock : Obligations.PendingResponseHoldsTheBlock := by
  refine ⟨fun s r hw hrst hrsp hready => step_held hw hrst hrsp hready, fun s hw hrst hrsp hup hcmd => ?_⟩
  have hsame : accepted s [] = s := by
    cases s
    simp_all [accepted]
  rw [step_idle hw hrst (.inl hrsp) hup hcmd, hsame]

section Accepting

variable {s : State} {w : CmdWord} {rest : List CmdWord}

theorem step_illegal (hacc : Accepting s w rest) (hl : ¬ LegalOp w) :
    step s = .next (raise .errOpcode (accepted s rest)) :=
  (step_accepting hacc).trans (runWord_of_error (decode_of_illegal hl) _)

theorem step_stray (hacc : Accepting s w rest) (hl : LegalOp w) (hs : StrayBit w) :
    step s = .next (raise .errField (accepted s rest)) :=
  (step_accepting hacc).trans (runWord_of_error (decode_of_stray hl hs) _)

/-- Any other word is the encoding of the command that the step runs. -/
theorem step_legal (hacc : Accepting s w rest) (hl : LegalOp w) (hs : ¬ StrayBit w) :
    ∃ i, w = encode i ∧ step s = exec i (accepted s rest) := by
  obtain ⟨i, hi⟩ := decode_of_legal hl hs
  exact ⟨i, (decode_eq_ok_iff.mp hi).2.symm, (step_accepting hacc).trans (runWord_of_ok hi _)⟩

end Accepting

/-- Of the 256 opcodes the table lists thirteen. -/
theorem illegal_opcode_count :
    ((List.range 256).filter (fun op => op ∉ mbzTable.map Prod.fst)).length = 243 := by
  have hbyte : ∀ op ∈ mbzTable.map Prod.fst, op < 256 := by decide
  have hlisted : (mbzTable.map Prod.fst).toFinset ⊆ Finset.range 256 := fun op hop =>
    Finset.mem_range.mpr (hbyte op (List.mem_toFinset.mp hop))
  calc ((List.range 256).filter (fun op => op ∉ mbzTable.map Prod.fst)).length
      = ((List.range 256).filter (fun op => op ∉ mbzTable.map Prod.fst)).toFinset.card :=
        (List.toFinset_card_of_nodup (List.nodup_range.filter _)).symm
    _ = (Finset.range 256 \ (mbzTable.map Prod.fst).toFinset).card := congrArg Finset.card (by ext; simp)
    _ = 256 - 13 := by rw [Finset.card_sdiff_of_subset hlisted, Finset.card_range]; rfl

/-- Settles O17: the decoder tells the two kinds of illegal words, and a good state never stops. -/
theorem illegalWordsAnswerAnError : Obligations.IllegalWordsAnswerAnError :=
  ⟨fun s _ _ hacc => ⟨step_illegal hacc, step_stray hacc, goodStatesNeverStop s⟩, illegal_opcode_count⟩

/-! ### The order of errors (60_exceptions.md R247) -/

@[simp] theorem opNat_packWord (op : Byte) (a b : Half) (c : Hsv) : opNat (packWord op a b c) = op.toNat := by
  rw [opNat_eq_fieldOp, fieldOp_packWord]

@[simp] theorem aNat_packWord (op : Byte) (a b : Half) (c : Hsv) : aNat (packWord op a b c) = a.toNat := by
  rw [aNat, ← fieldA_toNat, fieldA_packWord]

@[simp] theorem bNat_packWord (op : Byte) (a b : Half) (c : Hsv) : bNat (packWord op a b c) = b.toNat := by
  rw [bNat, ← fieldB_toNat, fieldB_packWord]

theorem badRegister_encode_iff (i : Instr) : BadRegister (encode i) ↔
    (∃ r, i = .rdctl r ∧ 6 ≤ r.toNat) ∨ (∃ r x, i = .wrctl r x ∧ r.toNat ≠ 2 ∧ r.toNat ≠ 3) := by
  cases i <;> simp [BadRegister, encode]

theorem wideValue_encode_iff (i : Instr) : WideValue (encode i) ↔
    ∃ r x, i = .wrctl r x ∧ ((r.toNat = 2 ∧ 255 < x.toNat) ∨ (r.toNat = 3 ∧ 1 < x.toNat)) := by
  cases i <;> simp [WideValue, encode]

theorem badCount_encode_iff (s : State) (i : Instr) : BadCount s (encode i) ↔
    ∃ n, (i = .setup n ∨ i = .resize n) ∧ s.cfg.ledMax < n.toNat := by
  cases i <;> simp [BadCount, encode]

theorem badIndex_encode_iff (s : State) (i : Instr) : BadIndex s (encode i) ↔
    ∃ k, i = .getled k ∧ s.ledCount.toNat ≤ k.toNat := by
  cases i <;> simp [BadIndex, encode]

theorem ctlRegOf_eq_none_iff {r : Half} : ctlRegOf r = none ↔ 6 ≤ r.toNat := by
  unfold ctlRegOf
  split
  case h_7 => simp only [true_iff, imp_false] at *; omega
  all_goals simp only [reduceCtorEq, false_iff]; omega

/-- Where `ERR_REG` applies, the command answers it (42_framebuffer.md R169, R170). -/
theorem exec_of_badRegister {i : Instr} (h : BadRegister (encode i)) (s : State) :
    exec i s = .next (raise .errReg s) := by
  obtain ⟨r, rfl, hr⟩ | ⟨r, x, rfl, hbright, hlaw⟩ := (badRegister_encode_iff i).mp h
  · simp only [exec, execRdctl, ctlRegOf_eq_none_iff.mpr hr]
  · simp only [exec, execWrctl]
    split
    next hreg => simp [ctlRegOf_bright hreg] at hbright
    next hreg => simp [ctlRegOf_law hreg] at hlaw
    all_goals rfl

/-- A value wider than the register it is for (42_framebuffer.md R170). -/
theorem exec_of_wideValue {i : Instr} (h : WideValue (encode i)) (s : State) :
    exec i s = .next (raise .errField s) := by
  obtain ⟨r, x, rfl, ⟨hr, hx⟩ | ⟨hr, hx⟩⟩ := (wideValue_encode_iff i).mp h
  · obtain rfl : r = 2#16 := BitVec.eq_of_toNat_eq hr
    exact if_pos hx
  · obtain rfl : r = 3#16 := BitVec.eq_of_toNat_eq hr
    exact if_pos hx

/-- A count above `LED_MAX` (42_framebuffer.md R162, R163). -/
theorem exec_of_badCount {i : Instr} {s : State} (h : BadCount s (encode i)) :
    exec i s = .next (raise .errCount s) := by
  obtain ⟨n, rfl | rfl, hn⟩ := (badCount_encode_iff s i).mp h
  · exact if_pos hn
  · exact if_pos hn

/-- An index from `LEDCOUNT` on (42_framebuffer.md R165). -/
theorem exec_of_badIndex {i : Instr} {s : State} (h : BadIndex s (encode i)) :
    exec i s = .next (raise .errIndex s) := by
  obtain ⟨k, rfl, hk⟩ := (badIndex_encode_iff s i).mp h
  exact exec_getled_hidden (Nat.not_lt.mpr hk)

/-- The command answers OK and does not start, advance or end an `UPLOAD`. -/
def AnswersOk (i : Instr) (s : State) : Prop := ∃ t data, exec i s = .next (respond .ok data t) ∧ t.upload = s.upload

theorem answersOk_rdctl {r : Half} (h : ¬ BadRegister (encode (.rdctl r))) (s : State) : AnswersOk (.rdctl r) s := by
  have hsome : ctlRegOf r ≠ none := fun hnone =>
    h ((badRegister_encode_iff _).mpr (.inl ⟨r, rfl, ctlRegOf_eq_none_iff.mp hnone⟩))
  obtain ⟨c, hc⟩ := Option.ne_none_iff_exists'.mp hsome
  exact ⟨s, readCtl s c, by simp only [exec, execRdctl, hc], rfl⟩

theorem answersOk_wrctl {r x : Half} (hreg : ¬ BadRegister (encode (.wrctl r x)))
    (hval : ¬ WideValue (encode (.wrctl r x))) (s : State) : AnswersOk (.wrctl r x) s := by
  simp only [badRegister_encode_iff, wideValue_encode_iff, reduceCtorEq, Instr.wrctl.injEq] at hreg hval
  by_cases hr : r.toNat = 2
  · obtain rfl : r = 2#16 := BitVec.eq_of_toNat_eq hr
    have hx : x.toNat ≤ 255 := Nat.not_lt.mp fun hx => hval ⟨_, x, ⟨rfl, rfl⟩, .inl ⟨rfl, hx⟩⟩
    exact ⟨_, _, exec_wrctl_bright hx s, rfl⟩
  · have hlaw : r.toNat = 3 := by
      by_contra hne
      exact hreg (.inr ⟨r, x, ⟨rfl, rfl⟩, hr, hne⟩)
    obtain rfl : r = 3#16 := BitVec.eq_of_toNat_eq hlaw
    have hx : x.toNat ≤ 1 := Nat.not_lt.mp fun hx => hval ⟨_, x, ⟨rfl, rfl⟩, .inr ⟨rfl, hx⟩⟩
    exact ⟨_, _, exec_wrctl_law hx s, rfl⟩

/-- Where no error applies, a command other than `UPLOAD` answers OK. -/
theorem answersOk_of_no_error {i : Instr} {s : State} (hi : i ≠ .upload) (hfb : FbComplete s)
    (hreg : ¬ BadRegister (encode i)) (hval : ¬ WideValue (encode i)) (hcount : ¬ BadCount s (encode i))
    (hindex : ¬ BadIndex s (encode i)) : AnswersOk i s := by
  cases i with
  | upload => exact absurd rfl hi
  | nop => exact ⟨_, _, rfl, rfl⟩
  | cvtrb => exact ⟨_, _, rfl, rfl⟩
  | cvtsp => exact ⟨_, _, rfl, rfl⟩
  | setup n =>
    have hn : ¬ s.cfg.ledMax < n.toNat := fun hn => hcount ((badCount_encode_iff s _).mpr ⟨n, .inl rfl, hn⟩)
    exact ⟨_, _, if_neg hn, rfl⟩
  | resize n =>
    have hn : ¬ s.cfg.ledMax < n.toNat := fun hn => hcount ((badCount_encode_iff s _).mpr ⟨n, .inr rfl, hn⟩)
    exact ⟨_, _, if_neg hn, rfl⟩
  | setled k c =>
    by_cases hk : k.toNat < s.ledCount.toNat
    · exact ⟨_, _, exec_setled_visible c hk, rfl⟩
    · exact ⟨_, _, if_neg hk, rfl⟩
  | getled k =>
    have hk : k.toNat < s.ledCount.toNat := Nat.not_le.mp fun hk => hindex ((badIndex_encode_iff s _).mpr ⟨k, rfl, hk⟩)
    obtain ⟨c, hc⟩ := Option.isSome_iff_exists.mp ((hfb _).mpr hk)
    exact ⟨_, _, exec_getled_visible hk hc, rfl⟩
  | fill => exact ⟨_, _, rfl, rfl⟩
  | fillr => exact ⟨_, _, rfl, rfl⟩
  | rainbow => exact ⟨_, _, rfl, rfl⟩
  | rdctl r => exact answersOk_rdctl hreg s
  | wrctl r x => exact answersOk_wrctl hreg hval s

/-- Where no error applies, the word is an `UPLOAD` that waits, or it answers OK. -/
theorem exec_of_no_error {i : Instr} {s : State} (hs : RegistersOk s) (hidle : s.upload = none) (hrsp : s.rsp = none)
    (hreg : ¬ BadRegister (encode i)) (hval : ¬ WideValue (encode i)) (hcount : ¬ BadCount s (encode i))
    (hindex : ¬ BadIndex s (encode i)) :
    ∃ t, exec i s = .next t ∧
      ((opNat (encode i) = 0x30 ∧ t.upload.isSome = true ∧ t.rsp = none) ∨
       (t.upload = none ∧ ∃ data : BitVec 24, t.rsp = some (0x00#8 ++ data))) := by
  by_cases hi : i = .upload
  · subst hi
    obtain ⟨t, hexec, _⟩ := execUpload_good hs hrsp
    have hop : opNat (encode .upload) = 0x30 := opNat_packWord _ _ _ _
    exact ⟨t, hexec, (execUpload_waitsOrAnswersOk hrsp hexec).imp_left fun hwaits => ⟨hop, hwaits⟩⟩
  · obtain ⟨t, data, hexec, hup⟩ := answersOk_of_no_error hi hs.fbComplete hreg hval hcount hindex
    exact ⟨_, hexec, .inr ⟨hup.trans hidle, data, rfl⟩⟩

/-- Settles O18: the tests of the decoder come first, and of a command that decodes at most one error applies but for
the value of `WRCTL`, which is looked at after its register. -/
theorem errorsAreReportedInOrder : Obligations.ErrorsAreReportedInOrder := by
  intro s w rest hg hacc
  refine ⟨step_illegal hacc, step_stray hacc, fun hl hs hreg => ?_, fun hl hs _ hval => ?_, fun hl hs hcount => ?_,
    fun hl hs hindex => ?_, fun hl hs hreg hval hcount hindex => ?_⟩ <;>
    obtain ⟨i, rfl, hstep⟩ := step_legal hacc hl hs <;>
    rw [hstep]
  · exact exec_of_badRegister hreg _
  · exact exec_of_wideValue hval _
  · exact exec_of_badCount (s := accepted s rest) hcount
  · exact exec_of_badIndex (s := accepted s rest) hindex
  · exact exec_of_no_error (s := accepted s rest) { hg with } hacc.noUpload rfl hreg hval hcount hindex

end Sys2Proof.Machine

/-! ## The family of 40_hsv2rgb_rainbow.md

The two multiplies (O25, O26), the identity between them (O27), the sector stage (O29), the closed form of the rainbow
law as `CVTRB` answers it (O30, O31), and the properties of that law (O32). -/

namespace Sys2Proof.Machine

/-! ### `scale8` and `scale8_video` (40_hsv2rgb_rainbow.md R110 to R112) -/

/-- A product of a byte and a factor below 256 loses at least one when its high byte is taken. -/
theorem mul_div_256_lt {i s : Nat} (hi : 0 < i) (hs : s ≤ 255) : i * s / 256 < i := by
  have : i * s ≤ i * 255 := Nat.mul_le_mul_left i hs
  omega

theorem scale8_le_254 (i s : Byte) : (scale8 i s).toNat ≤ 254 := by
  have := mul_lt_65536 i s
  rw [scale8_toNat]
  omega

/-- The factor 255 takes one off every nonzero byte. -/
theorem scale8_255_toNat (i : Byte) : (scale8 i 255#8).toNat = i.toNat - 1 := by
  rw [scale8_toNat, BitVec.toNat_ofNat]
  omega

theorem scale8_zero_right (i : Byte) : scale8 i 0#8 = 0#8 :=
  BitVec.eq_of_toNat_eq (by simp)

theorem scale8_zero_left (s : Byte) : scale8 0#8 s = 0#8 :=
  BitVec.eq_of_toNat_eq (by simp)

/-- Settles O25: a product of two bytes is below `255 * 256`, so nothing wraps. -/
theorem scaleEightIsExact : Obligations.ScaleEightIsExact := fun i s =>
  ⟨scale8_toNat i s, scale8_le_254 i s, scale8_255_toNat i, scale8_zero_right i, scale8_zero_left s⟩

theorem videoNat_comm (i s : Nat) : videoNat i s = videoNat s i := by
  simp only [videoNat, Nat.mul_comm i s, or_comm (a := i = 0)]

theorem videoNat_of_pos {i s : Nat} (hi : i ≠ 0) (hs : s ≠ 0) : videoNat i s = i * s / 256 + 1 := by
  rw [videoNat, if_neg (not_or.mpr ⟨hi, hs⟩)]

theorem videoNat_eq_zero_iff {i s : Nat} : videoNat i s = 0 ↔ i = 0 ∨ s = 0 := by
  by_cases h : i = 0 ∨ s = 0
  · obtain rfl | rfl := h <;> simp [videoNat]
  · simp [videoNat, h]

/-- The `video` multiply by a factor that is a byte is not more than what it multiplies. -/
theorem videoNat_le_left {i s : Nat} (hs : s ≤ 255) : videoNat i s ≤ i := by
  by_cases h : i = 0 ∨ s = 0
  · simp [videoNat_eq_zero_iff.mpr h]
  · obtain ⟨hi, hs0⟩ := not_or.mp h
    rw [videoNat_of_pos hi hs0]
    exact mul_div_256_lt (Nat.pos_of_ne_zero hi) hs

theorem videoNat_le_right {i s : Nat} (hi : i ≤ 255) : videoNat i s ≤ s :=
  videoNat_comm i s ▸ videoNat_le_left hi

/-- The factor 255 is the identity of the `video` multiply. -/
theorem videoNat_255 {i : Nat} (hi : i ≤ 255) : videoNat i 255 = i := by
  unfold videoNat
  split <;> omega

@[simp] theorem scale8Video_255_right (i : Byte) : scale8Video i 255#8 = i := by
  apply BitVec.eq_of_toNat_eq
  rw [scale8Video_toNat]
  exact videoNat_255 (by omega)

@[simp] theorem scale8Video_255_left (s : Byte) : scale8Video 255#8 s = s := by
  apply BitVec.eq_of_toNat_eq
  rw [scale8Video_toNat, videoNat_comm]
  exact videoNat_255 (by omega)

theorem scale8Video_eq_zero_iff (i s : Byte) : scale8Video i s = 0#8 ↔ i = 0#8 ∨ s = 0#8 := by
  simp only [← BitVec.toNat_inj, scale8Video_toNat, BitVec.toNat_ofNat, Nat.zero_mod, videoNat_eq_zero_iff]

/-- Settles O26: the zero operands are told apart on bytes as they are on numbers. -/
theorem scaleEightVideoIsExact : Obligations.ScaleEightVideoIsExact := by
  intro i s
  refine ⟨?_, scale8Video_eq_zero_iff i s, scale8Video_255_right i, scale8Video_255_right _⟩
  rw [scale8Video_toNat, videoNat]
  by_cases h : i = 0#8 ∨ s = 0#8
  · rw [if_pos (by simpa [← BitVec.toNat_inj] using h), if_neg (by tauto)]
  · rw [if_neg (by simpa [← BitVec.toNat_inj] using h), if_pos (not_or.mp h)]

/-- `scale8` plus 1 does not wrap, so on nonzero operands it is `scale8_video` (R112). -/
theorem rescale_eq_scale8Video (c : Byte) {x : Byte} (hx : x ≠ 0#8) : rescale c x = scale8Video c x := by
  unfold rescale
  split
  next hc =>
    have hsmall := scale8_le_254 c x
    have hc' : c.toNat ≠ 0 := BitVec.toNat_ne.mp hc
    have hx' : x.toNat ≠ 0 := BitVec.toNat_ne.mp hx
    apply BitVec.eq_of_toNat_eq
    rw [scale8Video_toNat, videoNat_of_pos hc' hx', ← scale8_toNat, add8_toNat, BitVec.toNat_ofNat]
    omega
  next hc => exact ((scale8Video_eq_zero_iff c x).mpr (.inl (not_not.mp hc))).symm

/-- Settles O27: the statement writes `rescale` out. -/
theorem rescaleIsScaleEightVideo : Obligations.RescaleIsScaleEightVideo :=
  fun c _ hx => rescale_eq_scale8Video c hx

/-! ### The sector stage (40_hsv2rgb_rainbow.md R114, R115) -/

/-- The shift of the five offset bits loses none of them. -/
theorem offset8_toNat (hue : Byte) : (offset8 hue).toNat = hue.toNat % 32 * 8 := by
  have hmask : (hue &&& 31#8).toNat = hue.toNat % 32 := Nat.and_two_pow_sub_one_eq_mod hue.toNat 5
  rw [offset8, BitVec.toNat_shiftLeft, hmask, Nat.shiftLeft_eq]
  omega

/-- Both ramps, as numbers: the offset times the factor of the ramp. -/
theorem scale8_offset8_toNat (hue factor : Byte) :
    (scale8 (offset8 hue) factor).toNat = hue.toNat % 32 * 8 * factor.toNat / 256 := by
  rw [scale8_toNat, offset8_toNat]

@[simp] theorem termValue_const (cfg : Config) (hue c : Byte) : termValue cfg hue (.const c) = c := rfl

theorem termValue_plus_toNat {cfg : Config} {hue c : Byte} {x : Ramp}
    (h : c.toNat + (rampValue cfg hue x).toNat ≤ 255) :
    (termValue cfg hue (.plus c x)).toNat = c.toNat + (rampValue cfg hue x).toNat := by
  rw [termValue, add8_toNat]
  omega

theorem termValue_minus_toNat {cfg : Config} {hue c : Byte} {x : Ramp}
    (h : (rampValue cfg hue x).toNat ≤ c.toNat) :
    (termValue cfg hue (.minus c x)).toNat = c.toNat - (rampValue cfg hue x).toNat :=
  sub8_toNat_of_le h

/-- The sector stage evaluates the row of the hue's sector. -/
theorem sectorStage_of_sector {cfg : Config} {hue : Byte} {k : Fin 8} (hk : sectorOf hue = k) :
    sectorStage cfg hue =
      { red := termValue cfg hue cfg.rainbowTable[k].r0
        green := termValue cfg hue cfg.rainbowTable[k].g0
        blue := termValue cfg hue cfg.rainbowTable[k].b0 } := by
  subst hk
  rfl

/-- The sector stage over plain numbers, sector by sector: the ramps end at 82 and 164, which leaves every sum and
difference of the table within a byte. -/
theorem sectorStage_toNat {cfg : Config} (hcfg : StandardRainbow cfg) (hue : Byte) :
    ((sectorStage cfg hue).red.toNat, (sectorStage cfg hue).green.toNat, (sectorStage cfg hue).blue.toNat) =
      sectorNat hue.toNat := by
  obtain ⟨htable, hone, htwo⟩ := hcfg
  have hthird : (rampValue cfg hue .third).toNat = hue.toNat % 32 * 8 * 85 / 256 := by
    rw [rampValue, hone]
    exact scale8_offset8_toNat hue 85#8
  have htwoThirds : (rampValue cfg hue .twoThirds).toNat = hue.toNat % 32 * 8 * 170 / 256 := by
    rw [rampValue, htwo]
    exact scale8_offset8_toNat hue 170#8
  have hthird_le : (rampValue cfg hue .third).toNat ≤ 82 := by omega
  have htwoThirds_le : (rampValue cfg hue .twoThirds).toNat ≤ 164 := by omega
  obtain ⟨k, hk⟩ : ∃ k, sectorOf hue = k := ⟨_, rfl⟩
  have hsector : hue.toNat / 32 = k.val := congrArg Fin.val hk
  simp only [sectorStage_of_sector hk, sectorNat, htable, hsector, ← hthird, ← htwoThirds]
  match k with
  | 0 | 1 | 2 | 3 | 4 | 5 | 6 | 7 =>
    simp (disch := simp; omega) [defaultRainbowTable, termValue_plus_toNat, termValue_minus_toNat] <;> rfl

/-- Settles O29: the default configuration has the table and the factors, and with them no channel wraps. -/
theorem sectorTableDoesNotWrap : Obligations.SectorTableDoesNotWrap :=
  ⟨⟨rfl, rfl, rfl⟩, fun _ hue hcfg => sectorStage_toNat hcfg hue⟩

/-- Every row of the sector table leaves one channel at zero. -/
theorem defaultRainbowTable_has_zero (k : Fin 8) :
    defaultRainbowTable[k].r0 = .const 0#8 ∨ defaultRainbowTable[k].g0 = .const 0#8 ∨
      defaultRainbowTable[k].b0 = .const 0#8 := by
  revert k
  decide

/-- With the table of R115 and any factors, one channel of the sector stage is zero. -/
theorem sectorStage_has_zero {cfg : Config} (h : cfg.rainbowTable = defaultRainbowTable) (hue : Byte) :
    (sectorStage cfg hue).red = 0#8 ∨ (sectorStage cfg hue).green = 0#8 ∨ (sectorStage cfg hue).blue = 0#8 := by
  have hzero {t : ChannelTerm} (ht : t = .const 0#8) : termValue cfg hue t = 0#8 := by rw [ht, termValue_const]
  rw [sectorStage_of_sector rfl, h]
  exact (defaultRainbowTable_has_zero (sectorOf hue)).imp hzero (Or.imp hzero hzero)

/-! ### The saturation stage (40_hsv2rgb_rainbow.md R116) -/

theorem desat_toNat (sat : Byte) : (desat sat).toNat = videoNat (255 - sat.toNat) (255 - sat.toNat) := by
  have hsub : (sub8 255#8 sat).toNat = 255 - sat.toNat := sub8_toNat_of_le (by simp; omega)
  rw [desat, scale8Video_toNat, hsub]

/-- Only at saturation 0 does the floor fill the byte. -/
theorem desat_lt_255 {sat : Byte} (h : sat ≠ 0#8) : (desat sat).toNat < 255 := by
  have hpos : sat.toNat ≠ 0 := BitVec.toNat_ne.mp h
  have hle : videoNat (255 - sat.toNat) (255 - sat.toNat) ≤ 255 - sat.toNat := videoNat_le_left (by omega)
  rw [desat_toNat]
  omega

/-- Only at saturation 255 is there no floor. -/
theorem desat_pos {sat : Byte} (h : sat ≠ 255#8) : 1 ≤ (desat sat).toNat := by
  have hlt : sat.toNat ≠ 255 := BitVec.toNat_ne.mp h
  have hne : (desat sat).toNat ≠ 0 := by
    rw [desat_toNat, ne_eq, videoNat_eq_zero_iff]
    omega
  omega

@[simp] theorem saturate_255 (c0 : Byte) : saturate 255#8 c0 = c0 := if_pos rfl

@[simp] theorem saturate_zero (c0 : Byte) : saturate 0#8 c0 = 255#8 := rfl

/-- Between the two ends the floor is added to the `video` product by what the floor leaves of the byte, and the sum
does not wrap. -/
theorem saturate_between_toNat {sat : Byte} (h0 : sat ≠ 0#8) (h255 : sat ≠ 255#8) (c0 : Byte) :
    (saturate sat c0).toNat = videoNat c0.toNat (255 - (desat sat).toNat) + (desat sat).toNat := by
  have hlt := desat_lt_255 h0
  have hscale : (sub8 255#8 (desat sat)).toNat = 255 - (desat sat).toNat := sub8_toNat_of_le (by simp; omega)
  have hne : sub8 255#8 (desat sat) ≠ 0#8 := by
    rw [ne_eq, ← BitVec.toNat_inj, hscale, BitVec.toNat_ofNat]
    omega
  have hle : videoNat c0.toNat (255 - (desat sat).toNat) ≤ 255 - (desat sat).toNat := videoNat_le_right (by omega)
  rw [saturate, if_neg h255, if_neg h0, rescale_eq_scale8Video c0 hne, add8_toNat, scale8Video_toNat, hscale]
  omega

/-- The floor is below every channel that the saturation stage gives. -/
theorem desat_le_saturate {sat : Byte} (h0 : sat ≠ 0#8) (h255 : sat ≠ 255#8) (c0 : Byte) :
    (desat sat).toNat ≤ (saturate sat c0).toNat := by
  rw [saturate_between_toNat h0 h255]
  exact Nat.le_add_left _ _

/-! ### The value stage (40_hsv2rgb_rainbow.md R117) -/

/-- The three branches of the value stage are one `video` multiply. -/
theorem dim_eq_scale8Video (val c1 : Byte) : dim val c1 = scale8Video c1 (scale8Video val val) := by
  unfold dim
  split
  next hval => rw [hval, scale8Video_255_right, scale8Video_255_right]
  next =>
    split
    next hzero => exact ((scale8Video_eq_zero_iff _ _).mpr (.inr hzero)).symm
    next hzero => exact rescale_eq_scale8Video c1 hzero

@[simp] theorem dim_255 (c1 : Byte) : dim 255#8 c1 = c1 := if_pos rfl

@[simp] theorem dim_val_zero (c1 : Byte) : dim 0#8 c1 = 0#8 := rfl

@[simp] theorem dim_channel_zero (val : Byte) : dim val 0#8 = 0#8 := by
  rw [dim_eq_scale8Video, scale8Video_eq_zero_iff]
  exact .inl rfl

@[simp] theorem dim_channel_255 (val : Byte) : dim val 255#8 = scale8Video val val := by
  rw [dim_eq_scale8Video, scale8Video_255_left]

/-! ### The closed form and the command (40_hsv2rgb_rainbow.md R119, R121) -/

/-- One channel of the law is the closed form of R119. -/
theorem dim_saturate_toNat (sat val c0 : Byte) :
    (dim val (saturate sat c0)).toNat = rainbowNat c0.toNat sat.toNat val.toNat := by
  rw [dim_eq_scale8Video, scale8Video_toNat, scale8Video_toNat, rainbowNat]
  congr 1
  by_cases h255 : sat = 255#8
  · simp [h255]
  · by_cases h0 : sat = 0#8
    · simp [h0]
    · have h255' : sat.toNat ≠ 255 := BitVec.toNat_ne.mp h255
      have h0' : sat.toNat ≠ 0 := BitVec.toNat_ne.mp h0
      rw [saturate_between_toNat h0 h255, if_neg h255', if_neg h0', desat_toNat]

theorem ofNat_rainbowNat (sat val c0 : Byte) :
    BitVec.ofNat 8 (rainbowNat c0.toNat sat.toNat val.toNat) = dim val (saturate sat c0) := by
  rw [← dim_saturate_toNat, BitVec.ofNat_toNat, BitVec.setWidth_eq]

/-- The response word of a converted colour, byte by byte (R15). -/
theorem responseWord_packRgb (c : Rgb) : responseWord .ok (packRgb c) = 0x00#8 ++ c.red ++ c.green ++ c.blue :=
  responseWord_packHsv ⟨c.red, c.green, c.blue⟩

theorem exec_cvtrb (c : Hsv) (s : State) :
    exec (.cvtrb c) s = .next (respond .ok (packRgb (hsv2rgbRainbow s.cfg c)) s) := rfl

/-- Settles O30: the response is the law's colour, and each channel of it is the closed form. -/
theorem cvtrbAnswersTheClosedForm : Obligations.CvtrbAnswersTheClosedForm := by
  intro s c base out
  rw [exec_cvtrb, next_respond_iff, responseWord_packRgb]
  simp only [out, ofNat_rainbowNat]
  rfl

/-- Settles O31: the closed form on the channels that the sector table gives over plain numbers. -/
theorem cvtrbAnswersTheRainbowLaw : Obligations.CvtrbAnswersTheRainbowLaw := by
  intro s c hcfg base out
  simp only [base, ← sectorStage_toNat hcfg c.hue]
  exact cvtrbAnswersTheClosedForm s c

/-! ### Properties of the law (40_hsv2rgb_rainbow.md R120) -/

/-- Settles O32, each clause from what the stages do at the ends of their operands. -/
theorem rainbowLawProperties : Obligations.RainbowLawProperties := by
  intro cfg hue sat val out grey
  refine ⟨?grey, ?white, ?black, ?identity, ?floor, ?zeroChannel⟩
  case grey =>
    rintro rfl
    simp only [out, grey, hsv2rgbRainbow, saturate_zero, dim_channel_255]
  case white =>
    rintro rfl rfl
    simp only [out, grey, hsv2rgbRainbow, saturate_zero, dim_255]
  case black =>
    rintro rfl
    simp only [out, grey, hsv2rgbRainbow, dim_val_zero]
  case identity =>
    rintro rfl rfl
    simp only [out, hsv2rgbRainbow, saturate_255, dim_255]
  case floor =>
    rintro h0 h255 rfl
    simp only [out, hsv2rgbRainbow, dim_255]
    exact ⟨desat_pos h255, desat_le_saturate h0 h255 _, desat_le_saturate h0 h255 _, desat_le_saturate h0 h255 _⟩
  case zeroChannel =>
    rintro htable rfl
    have hzero {c0 : Byte} (h : c0 = 0#8) : dim val (saturate 255#8 c0) = 0#8 := by
      rw [h, saturate_255, dim_channel_zero]
    exact (sectorStage_has_zero htable hue).imp hzero (Or.imp hzero hzero)

end Sys2Proof.Machine

/-! ## The family of 41_hsv2rgb_spectrum.md

The spectrum law as `CVTSP` answers it (O33) and the properties of the law (O34). -/

namespace Sys2Proof.Machine

/-! ### The floor, the amplitude and the ramps (41_hsv2rgb_spectrum.md R141, R143) -/

theorem brightnessFloor_toNat (c : Hsv) :
    (brightnessFloor c).toNat = c.val.toNat * (255 - c.sat.toNat) / 256 := by
  have hsub : (sub8 255#8 c.sat).toNat = 255 - c.sat.toNat := sub8_toNat_of_le (by simp; omega)
  rw [brightnessFloor, scale8_toNat, hsub]

theorem brightnessFloor_le_val (c : Hsv) : (brightnessFloor c).toNat ≤ c.val.toNat := by
  have : c.val.toNat * (255 - c.sat.toNat) ≤ c.val.toNat * 256 := Nat.mul_le_mul_left _ (by omega)
  rw [brightnessFloor_toNat]
  omega

/-- The floor is at most `val`, so the amplitude does not wrap. -/
theorem colourAmplitude_toNat (c : Hsv) :
    (colourAmplitude c).toNat = c.val.toNat - (brightnessFloor c).toNat :=
  sub8_toNat_of_le (brightnessFloor_le_val c)

/-- A ramp of at most 63 sixty-fourths leaves no more than the amplitude. -/
theorem ramp_mul_div_64_le {ramp : Nat} (h : ramp ≤ 63) (amp : Nat) : ramp * amp / 64 ≤ amp := by
  have : ramp * amp ≤ 63 * amp := Nat.mul_le_mul_right amp h
  omega

/-- The weighted ramp is at most the amplitude, and amplitude and floor make up `val`: nothing wraps. -/
theorem liftRamp_toNat {ramp : Nat} (h : ramp ≤ 63) (c : Hsv) :
    (liftRamp ramp c).toNat =
      ramp * (c.val.toNat - (brightnessFloor c).toNat) / 64 + (brightnessFloor c).toNat := by
  have hramp := ramp_mul_div_64_le h (c.val.toNat - (brightnessFloor c).toNat)
  have hfloor := brightnessFloor_le_val c
  rw [liftRamp, add8_toNat, BitVec.toNat_ofNat, Nat.shiftRight_eq_div_pow, colourAmplitude_toNat]
  omega

theorem brightnessFloor_le_liftRamp {ramp : Nat} (h : ramp ≤ 63) (c : Hsv) :
    (brightnessFloor c).toNat ≤ (liftRamp ramp c).toNat := by
  rw [liftRamp_toNat h]
  exact Nat.le_add_left _ _

theorem liftRamp_le_val {ramp : Nat} (h : ramp ≤ 63) (c : Hsv) : (liftRamp ramp c).toNat ≤ c.val.toNat := by
  have hramp := ramp_mul_div_64_le h (c.val.toNat - (brightnessFloor c).toNat)
  have hfloor := brightnessFloor_le_val c
  rw [liftRamp_toNat h]
  omega

/-- Without saturation the floor is `scale8(val, 255)`. -/
theorem brightnessFloor_sat_zero {c : Hsv} (h : c.sat = 0#8) : (brightnessFloor c).toNat = c.val.toNat - 1 := by
  rw [brightnessFloor, h]
  exact scale8_255_toNat c.val

/-- Without saturation the amplitude is at most 1, which no ramp makes visible. -/
theorem liftRamp_sat_zero {ramp : Nat} (hramp : ramp ≤ 63) {c : Hsv} (h : c.sat = 0#8) :
    (liftRamp ramp c).toNat = c.val.toNat - 1 := by
  have hamp : ramp * (c.val.toNat - (c.val.toNat - 1)) ≤ 63 * 1 := Nat.mul_le_mul hramp (by omega)
  rw [liftRamp_toNat hramp, brightnessFloor_sat_zero h]
  omega

/-! ### The sections of the hue (41_hsv2rgb_spectrum.md R142, R145, R146) -/

section Sections
variable {sec3 : SpectrumSection3} {c : Hsv}

theorem hsv2rgbSpectrum_section0 (h : (spectrumHue sec3 c.hue).toNat / 64 = 0) :
    hsv2rgbSpectrum sec3 c =
      { red := liftRamp (63 - (spectrumHue sec3 c.hue).toNat % 64) c
        green := liftRamp ((spectrumHue sec3 c.hue).toNat % 64) c
        blue := brightnessFloor c } := by
  simp only [hsv2rgbSpectrum, h]

theorem hsv2rgbSpectrum_section1 (h : (spectrumHue sec3 c.hue).toNat / 64 = 1) :
    hsv2rgbSpectrum sec3 c =
      { red := brightnessFloor c
        green := liftRamp (63 - (spectrumHue sec3 c.hue).toNat % 64) c
        blue := liftRamp ((spectrumHue sec3 c.hue).toNat % 64) c } := by
  simp only [hsv2rgbSpectrum, h]

/-- Sections 2 and 3 are one. -/
theorem hsv2rgbSpectrum_section2 (h : 2 ≤ (spectrumHue sec3 c.hue).toNat / 64) :
    hsv2rgbSpectrum sec3 c =
      { red := liftRamp ((spectrumHue sec3 c.hue).toNat % 64) c
        green := brightnessFloor c
        blue := liftRamp (63 - (spectrumHue sec3 c.hue).toNat % 64) c } := by
  obtain ⟨k, hk⟩ := Nat.exists_eq_add_of_le' h
  simp only [hsv2rgbSpectrum, hk]

end Sections

theorem section_cases (hue : Nat) : hue / 64 = 0 ∨ hue / 64 = 1 ∨ 2 ≤ hue / 64 := by omega

/-- What holds of the floor and of every lifted ramp holds of every channel. -/
theorem hsv2rgbSpectrum_channels {P : Byte → Prop} {c : Hsv} (hfloor : P (brightnessFloor c))
    (hlift : ∀ ramp ≤ 63, P (liftRamp ramp c)) (sec3 : SpectrumSection3) :
    P (hsv2rgbSpectrum sec3 c).red ∧ P (hsv2rgbSpectrum sec3 c).green ∧ P (hsv2rgbSpectrum sec3 c).blue := by
  have hup := hlift ((spectrumHue sec3 c.hue).toNat % 64) (by omega)
  have hdown := hlift (63 - (spectrumHue sec3 c.hue).toNat % 64) (by omega)
  obtain h | h | h := section_cases (spectrumHue sec3 c.hue).toNat
  · rw [hsv2rgbSpectrum_section0 h]
    exact ⟨hdown, hup, hfloor⟩
  · rw [hsv2rgbSpectrum_section1 h]
    exact ⟨hfloor, hdown, hup⟩
  · rw [hsv2rgbSpectrum_section2 h]
    exact ⟨hup, hfloor, hdown⟩

/-- Each section leaves one channel at the floor. -/
theorem hsv2rgbSpectrum_has_floor (sec3 : SpectrumSection3) (c : Hsv) :
    (hsv2rgbSpectrum sec3 c).red = brightnessFloor c ∨ (hsv2rgbSpectrum sec3 c).green = brightnessFloor c ∨
      (hsv2rgbSpectrum sec3 c).blue = brightnessFloor c := by
  obtain h | h | h := section_cases (spectrumHue sec3 c.hue).toNat
  · exact .inr (.inr (by rw [hsv2rgbSpectrum_section0 h]))
  · exact .inl (by rw [hsv2rgbSpectrum_section1 h])
  · exact .inr (.inl (by rw [hsv2rgbSpectrum_section2 h]))

/-- The law over plain numbers on the hue the sections are cut from, section by section. -/
theorem hsv2rgbSpectrum_toNat (sec3 : SpectrumSection3) (c : Hsv) :
    ((hsv2rgbSpectrum sec3 c).red.toNat, (hsv2rgbSpectrum sec3 c).green.toNat, (hsv2rgbSpectrum sec3 c).blue.toNat) =
      spectrumNat (spectrumHue sec3 c.hue).toNat c.sat.toNat c.val.toNat := by
  have hup : (spectrumHue sec3 c.hue).toNat % 64 ≤ 63 := by omega
  have hdown : 63 - (spectrumHue sec3 c.hue).toNat % 64 ≤ 63 := by omega
  simp only [spectrumNat, ← brightnessFloor_toNat, ← liftRamp_toNat hup, ← liftRamp_toNat hdown]
  obtain h | h | h := section_cases (spectrumHue sec3 c.hue).toNat
  · rw [hsv2rgbSpectrum_section0 h, if_pos h]
  · rw [hsv2rgbSpectrum_section1 h, if_neg (by omega), if_pos h]
  · rw [hsv2rgbSpectrum_section2 h, if_neg (by omega), if_neg (by omega)]

/-! ### The command (41_hsv2rgb_spectrum.md R147) -/

theorem exec_cvtsp (c : Hsv) (s : State) :
    exec (.cvtsp c) s = .next (respond .ok (packRgb (hsv2rgbSpectrum s.cfg.section3 c)) s) := rfl

/-- Settles O33: the response is the law's colour, and its channels over plain numbers are those of R146. -/
theorem cvtspAnswersTheSpectrumLaw : Obligations.CvtspAnswersTheSpectrumLaw := by
  intro s c hue out
  have hhue : (spectrumHue s.cfg.section3 c.hue).toNat = hue := by
    simp only [hue]
    cases s.cfg.section3 with
    | asSection2 => rfl
    | prescale => exact scale8_toNat c.hue 191#8
  have hout : _ = out := hhue ▸ hsv2rgbSpectrum_toNat s.cfg.section3 c
  rw [exec_cvtsp, next_respond_iff, responseWord_packRgb, ← hout]
  simp only [BitVec.ofNat_toNat, BitVec.setWidth_eq]

/-! ### Properties of the law (41_hsv2rgb_spectrum.md R145, R146) -/

/-- Under `asSection2` the hues of section 3 repeat those of section 2, 64 below: the offset is the same, and the floor
and the ramps do not read the hue otherwise. -/
theorem hsv2rgbSpectrum_section3_eq_section2 {hue : Byte} (h : 192 ≤ hue.toNat) (sat val : Byte) :
    hsv2rgbSpectrum .asSection2 { hue := hue, sat := sat, val := val } =
      hsv2rgbSpectrum .asSection2 { hue := BitVec.ofNat 8 (hue.toNat - 64), sat := sat, val := val } := by
  have hsub : (BitVec.ofNat 8 (hue.toNat - 64)).toNat = hue.toNat - 64 := by
    rw [BitVec.toNat_ofNat]
    omega
  have hoff : (hue.toNat - 64) % 64 = hue.toNat % 64 := by omega
  rw [hsv2rgbSpectrum_section2 (by simp only [spectrumHue]; omega),
    hsv2rgbSpectrum_section2 (by simp only [spectrumHue, hsub]; omega)]
  simp only [spectrumHue, hsub, hoff]
  rfl

/-- Settles O34: the bounds, black and grey hold of the floor and of every lifted ramp. -/
theorem spectrumLawProperties : Obligations.SpectrumLawProperties := by
  intro sec3 hue sat val floor out
  let c : Hsv := { hue := hue, sat := sat, val := val }
  have hfloor : (brightnessFloor c).toNat = floor := brightnessFloor_toNat c
  obtain ⟨hred, hgreen, hblue⟩ :=
    hsv2rgbSpectrum_channels (P := fun x => floor ≤ x.toNat ∧ x.toNat ≤ val.toNat) (c := c)
      ⟨hfloor.ge, brightnessFloor_le_val c⟩
      (fun _ h => ⟨hfloor ▸ brightnessFloor_le_liftRamp h c, liftRamp_le_val h c⟩) sec3
  refine ⟨hred, hgreen, hblue, ?oneAtFloor, ?black, ?grey, ?section3⟩
  case oneAtFloor =>
    have hat {x : Byte} (h : x = brightnessFloor c) : x.toNat = floor := h ▸ hfloor
    exact (hsv2rgbSpectrum_has_floor sec3 c).imp hat (Or.imp hat hat)
  case black =>
    rintro rfl
    have hzero {x : Byte} (h : floor ≤ x.toNat ∧ x.toNat ≤ 0) : x = 0#8 :=
      BitVec.eq_of_toNat_eq (Nat.le_zero.mp h.2)
    exact congr (congrArg₂ Rgb.mk (hzero hred) (hzero hgreen)) (hzero hblue)
  case grey =>
    intro hsat
    exact hsv2rgbSpectrum_channels (P := fun x => x.toNat = val.toNat - 1) (c := c)
      (brightnessFloor_sat_zero hsat) (fun _ h => liftRamp_sat_zero h hsat) sec3
  case section3 =>
    rintro rfl h
    exact hsv2rgbSpectrum_section3_eq_section2 h sat val

end Sys2Proof.Machine

/-! ## The family of 42_framebuffer.md

`NOP` (O35), the commands on the count of the FrameBuffer (O36 to O38), those on its entries (O39, O41, O43 to O45), and
those on the control registers (O46, O47). -/

namespace Sys2Proof.Machine

/-! ### Response words (30_encoding.md R87) -/

theorem zero_append_toNat (m : Nat) {w : Nat} (v : BitVec w) : (0#m ++ v).toNat = v.toNat := by
  simp [BitVec.toNat_append]

/-- The status of an OK response is a zero byte, so the word is its data zero-extended. -/
theorem responseWord_ok (data : BitVec 24) : responseWord .ok data = BitVec.ofNat 32 data.toNat :=
  BitVec.eq_of_toNat_eq <| calc (responseWord .ok data).toNat
      = data.toNat := zero_append_toNat 8 data
    _ = (BitVec.ofNat 32 data.toNat).toNat := (Nat.mod_eq_of_lt (by omega)).symm

/-- The data of an OK response that carries one byte (42_framebuffer.md R162, R163). -/
theorem responseWord_byte (v : Byte) : responseWord .ok (v.setWidth 24) = 0x00#8 ++ 0#16 ++ v :=
  BitVec.eq_of_toNat_eq <| calc (responseWord .ok (v.setWidth 24)).toNat
      = (v.setWidth 24).toNat := zero_append_toNat 8 _
    _ = v.toNat := BitVec.toNat_setWidth_of_le (by decide)
    _ = (0#24 ++ v).toNat := (zero_append_toNat 24 v).symm

/-! ### The commands that write a range of entries (42_framebuffer.md R164 to R168) -/

/-- The frame of the writing commands and every entry after one of them. -/
theorem writesRange_of_exec {i : Instr} {lo hi : Nat} {f : Nat → Hsv} {s : State}
    (h : exec i s = .next (respond .ok 0#24 (writeEntries lo hi f s))) :
    ∃ t, exec i s = .next t ∧ t = { s with fb := t.fb, rsp := some (0x00#8 ++ 0#24) } ∧
      ∀ k, readEntry t k = if lo ≤ k ∧ k < hi then some (f k) else readEntry s k :=
  ⟨_, h, rfl, fun k => by rw [readEntry_respond, readEntry_writeEntries]⟩

/-- Settles O39: the range of a `SETLED` is its own index alone. -/
theorem setledStoresOneEntry : Obligations.SetledStoresOneEntry := by
  intro a c s ha
  obtain ⟨t, hexec, hframe, hread⟩ := writesRange_of_exec (exec_setled_visible c ha)
  have hself (k : Nat) : (a.toNat ≤ k ∧ k < a.toNat + 1) ↔ k = a.toNat := by omega
  exact ⟨t, hexec, hframe, by simpa only [hself] using hread⟩

/-- Settles O43: the range of a `FILL` is the visible entries. -/
theorem fillStoresEveryEntry : Obligations.FillStoresEveryEntry := by
  intro c s
  obtain ⟨t, hexec, hframe, hread⟩ := writesRange_of_exec (i := .fill c) (s := s) rfl
  exact ⟨t, hexec, hframe, by simpa only [Nat.zero_le, true_and] using hread⟩

/-- Settles O44: the end of the range is a minimum over plain numbers, so nothing wraps. -/
theorem fillrStoresTheClampedRange : Obligations.FillrStoresTheClampedRange := by
  intro start len c s
  obtain ⟨t, hexec, hframe, hread⟩ := writesRange_of_exec (i := .fillr start len c) (s := s) rfl
  exact ⟨t, hexec, hframe, by simpa only [rangeEnd, Nat.lt_min] using hread⟩

/-! ### The hue ramp (42_framebuffer.md R168) -/

/-- The hue step is the low byte of the operand (30_encoding.md R86). -/
theorem hueStep_toNat (b : Half) : (hueStep b).toNat = b.toNat % 256 := by
  simp [hueStep]

theorem rainbowEntry_zero (d : Byte) (c : Hsv) : rainbowEntry d c 0 = c := by
  simp [rainbowEntry]

/-- The running 8-bit accumulator: each entry's hue is the last one's plus the step. -/
theorem rainbowEntry_succ (d : Byte) (c : Hsv) (k : Nat) :
    rainbowEntry d c (k + 1) =
      { hue := add8 (rainbowEntry d c k).hue d, sat := (rainbowEntry d c k).sat, val := (rainbowEntry d c k).val } := by
  have hhue : BitVec.ofNat 8 (c.hue.toNat + d.toNat * (k + 1)) =
      add8 (BitVec.ofNat 8 (c.hue.toNat + d.toNat * k)) d := by
    refine BitVec.eq_of_toNat_eq ?_
    rw [add8, BitVec.toNat_ofNat, BitVec.toNat_ofNat, BitVec.toNat_ofNat, Nat.mod_add_mod, Nat.mul_succ, Nat.add_assoc]
  simp only [rainbowEntry, hhue]

/-- Settles O45: `rainbowEntry_zero` and `rainbowEntry_succ` of the entries that `RAINBOW` writes. -/
theorem rainbowStoresTheRamp : Obligations.RainbowStoresTheRamp := by
  intro b c s d
  have hstep : (hueStep b).toNat = d := hueStep_toNat b
  obtain ⟨t, hexec, hframe, hread⟩ := writesRange_of_exec (i := .rainbow b c) (s := s) rfl
  simp only [Nat.zero_le, true_and] at hread
  refine ⟨t, hexec, hframe, ?ramp, ?first, ?accumulator⟩
  case ramp => simpa only [rainbowEntry, hstep] using hread
  case first =>
    intro hpos
    rw [hread, if_pos hpos, rainbowEntry_zero]
  case accumulator =>
    intro k x y hk hx hy
    rw [hread, if_pos (Nat.lt_of_succ_lt hk)] at hx
    rw [hread, if_pos hk, rainbowEntry_succ] at hy
    cases hx
    cases hy
    rw [← hstep, BitVec.ofNat_toNat, BitVec.setWidth_eq]

/-! ### The commands that set the count (42_framebuffer.md R162, R163) -/

theorem exec_setup_fits {n : Half} {s : State} (hn : n.toNat ≤ s.cfg.ledMax) :
    exec (.setup n) s = .next (respond .ok ((setCount n s).totalPkts.setWidth 24)
      (writeEntries 0 n.toNat (fun _ => s.cfg.defaultHsv) (setCount n s))) :=
  if_neg (Nat.not_lt.mpr hn)

theorem exec_resize_fits {n : Half} {s : State} (hn : n.toNat ≤ s.cfg.ledMax) :
    exec (.resize n) s = .next (respond .ok ((setCount n s).totalPkts.setWidth 24)
      (writeEntries s.ledCount.toNat n.toNat (fun _ => s.cfg.resizeFill) (setCount n s))) :=
  if_neg (Nat.not_lt.mpr hn)

/-- The frame of `SETUP` and `RESIZE` and every entry after one of them: from `lo` on new entries, below `lo` the
survivors, and nothing from the new count on (43_packetizer.md R200 for the packet count). -/
theorem setsCount_of_exec {i : Instr} {n : Half} {lo : Nat} {c : Hsv} {s : State}
    (h : exec i s = .next (respond .ok ((setCount n s).totalPkts.setWidth 24)
      (writeEntries lo n.toNat (fun _ => c) (setCount n s)))) :
    let total : Byte := BitVec.ofNat 8 (s.cfg.totalPackets n.toNat)
    ∃ t, exec i s = .next t ∧
      t = { s with ledCount := n, totalPkts := total, fb := t.fb, rsp := some (0x00#8 ++ 0#16 ++ total) } ∧
      ∀ k, readEntry t k = if k < n.toNat then (if k < lo then readEntry s k else some c) else none := by
  intro total
  refine ⟨_, h, ?frame, fun k => ?entries⟩
  case frame =>
    rw [← responseWord_byte total]
    rfl
  case entries =>
    rw [readEntry_respond, readEntry_writeEntries, readEntry_setCount]
    by_cases hk : k < n.toNat
    · by_cases hlo : k < lo
      · rw [if_neg (by omega), if_pos hk, if_pos hk, if_pos hlo]
      · rw [if_pos (by omega), if_pos hk, if_neg hlo]
    · rw [if_neg (by omega), if_neg hk, if_neg hk]

/-- Settles O36: after a `SETUP` no entry survives. -/
theorem setupCreatesTheBuffer : Obligations.SetupCreatesTheBuffer := by
  intro n s hn
  obtain ⟨t, hexec, hframe, hread⟩ := setsCount_of_exec (exec_setup_fits hn)
  exact ⟨t, hexec, hframe, by simpa only [Nat.not_lt_zero, if_false] using hread⟩

/-- Settles O37: after a `RESIZE` the entries below the old count survive. -/
theorem resizeKeepsTheSurvivors : Obligations.ResizeKeepsTheSurvivors := fun _ _ hn =>
  setsCount_of_exec (exec_resize_fits hn)

/-- Settles O38: both commands look at the count before they change anything. -/
theorem countsAboveTheDepthAreErrors : Obligations.CountsAboveTheDepthAreErrors := fun n s hn =>
  ⟨exec_of_badCount ((badCount_encode_iff s _).mpr ⟨n, .inl rfl, hn⟩),
    exec_of_badCount ((badCount_encode_iff s _).mpr ⟨n, .inr rfl, hn⟩)⟩

/-! ### The commands that only read (42_framebuffer.md R161, R165) -/

/-- Settles O35: the arm of `NOP` is the response alone. -/
theorem nopOnlyAnswers : Obligations.NopOnlyAnswers := fun _ => rfl

/-- Settles O41: a visible entry is answered byte by byte, and no other is looked at. -/
theorem getledAnswersTheEntry : Obligations.GetledAnswersTheEntry := fun _ _ =>
  ⟨fun c hvisible hc => (exec_getled_visible hvisible hc).trans (next_respond_iff.mpr (responseWord_packHsv c)),
    fun hhidden => exec_getled_hidden (Nat.not_lt.mpr hhidden)⟩

/-! ### The control registers (42_framebuffer.md R169, R170; 10_state.md R24) -/

/-- `RDCTL` of a register that holds the number `v`. -/
theorem exec_rdctl_of_toNat {r : Half} {c : CtlReg} {s : State} {v : Nat} (hr : ctlRegOf r = some c)
    (hv : (readCtl s c).toNat = v) : exec (.rdctl r) s = .next { s with rsp := some (BitVec.ofNat 32 v) } := by
  have hexec : exec (.rdctl r) s = .next (respond .ok (readCtl s c) s) := by
    simp only [exec, execRdctl, hr]
  rw [hexec, next_respond_iff, responseWord_ok, hv]

/-- Settles O46: the configuration of R8 keeps the two constants within the 24 data bits, and the registers are
narrower by their types. -/
theorem rdctlReadsTheRegisters : Obligations.RdctlReadsTheRegisters := by
  intro r s hcfg
  obtain ⟨⟨_, hmaxBytes⟩, hledMax, _⟩ := hcfg
  refine ⟨?ledCount, ?totalPkts, ?bright, ?law, ?maxBytes, ?ledMax, ?reserved⟩
  case ledCount => rintro rfl; exact exec_rdctl_of_toNat rfl (BitVec.toNat_setWidth_of_le (by decide))
  case totalPkts => rintro rfl; exact exec_rdctl_of_toNat rfl (BitVec.toNat_setWidth_of_le (by decide))
  case bright => rintro rfl; exact exec_rdctl_of_toNat rfl (BitVec.toNat_setWidth_of_le (by decide))
  case law => rintro rfl; exact exec_rdctl_of_toNat rfl (BitVec.toNat_setWidth_of_le (by decide))
  case maxBytes => rintro rfl; exact exec_rdctl_of_toNat rfl (Nat.mod_eq_of_lt (by omega))
  case ledMax => rintro rfl; exact exec_rdctl_of_toNat rfl (Nat.mod_eq_of_lt (by omega))
  case reserved => exact fun hr => exec_of_badRegister ((badRegister_encode_iff _).mpr (.inl ⟨r, rfl, hr⟩)) s

/-- Settles O47: the register is looked at before the value, and a value that fits is stored. -/
theorem wrctlWritesBrightAndLaw : Obligations.WrctlWritesBrightAndLaw := by
  intro r x s
  refine ⟨?bright, ?brightWide, ?law, ?lawWide, ?others⟩
  case bright =>
    rintro rfl hx
    exact exec_wrctl_bright hx s
  case brightWide =>
    rintro rfl hx
    exact exec_of_wideValue ((wideValue_encode_iff _).mpr ⟨_, x, rfl, .inl ⟨rfl, hx⟩⟩) s
  case law =>
    rintro rfl hx
    exact exec_wrctl_law hx s
  case lawWide =>
    rintro rfl hx
    exact exec_of_wideValue ((wideValue_encode_iff _).mpr ⟨_, x, rfl, .inr ⟨rfl, hx⟩⟩) s
  case others =>
    intro hbright hlaw
    exact exec_of_badRegister
      ((badRegister_encode_iff _).mpr (.inr ⟨r, x, rfl, BitVec.toNat_ne.mp hbright, BitVec.toNat_ne.mp hlaw⟩)) s

end Sys2Proof.Machine

/-! ## The family of 43_packetizer.md

The brightness multiplier (O28) and the packet under-count (O58); results of sends (O60); an `UPLOAD` that waits and is
gone on with (O53); where an `UPLOAD` stands once the Transport has taken and answered some packets of the closed form
(O48, O50 to O52); and what a frame depends on (O49, O54, O57, O59). -/

namespace Sys2Proof.Machine

/-! ### The brightness multiplier (43_packetizer.md R201) -/

theorem scaleBri_255 (c : Byte) : scaleBri c 255#8 = c :=
  BitVec.eq_of_toNat_eq ((scaleBri_toNat c 255#8).trans (Nat.mul_div_cancel _ (by decide)))

@[simp] theorem scaleBri_zero_right (c : Byte) : scaleBri c 0#8 = 0#8 :=
  BitVec.eq_of_toNat_eq (by simp)

@[simp] theorem scaleBri_zero_left (b : Byte) : scaleBri 0#8 b = 0#8 :=
  BitVec.eq_of_toNat_eq (by simp)

theorem scaleBri_mono {c c' b b' : Byte} (hc : c.toNat ≤ c'.toNat) (hb : b.toNat ≤ b'.toNat) :
    (scaleBri c b).toNat ≤ (scaleBri c' b').toNat := by
  rw [scaleBri_toNat, scaleBri_toNat]
  exact Nat.div_le_div_right (Nat.mul_le_mul hc hb)

theorem scaleBri_comm (c b : Byte) : scaleBri c b = scaleBri b c := by
  rw [scaleBri, scaleBri, Nat.mul_comm]

/-- No byte is above 255, at which the multiplier is the identity. -/
theorem scaleBri_le_left (c b : Byte) : (scaleBri c b).toNat ≤ c.toNat :=
  calc (scaleBri c b).toNat ≤ (scaleBri c 255#8).toNat := scaleBri_mono le_rfl (Nat.le_of_lt_succ b.isLt)
    _ = c.toNat := by rw [scaleBri_255]

/-- Settles O28: everything follows from the value at 255 and from monotonicity. -/
theorem brightnessMultiplierIsExact : Obligations.BrightnessMultiplierIsExact :=
  ⟨scaleBri_toNat, fun c => ⟨scaleBri_255 c, scaleBri_zero_right c, scaleBri_zero_left c⟩,
    fun c b => le_min (scaleBri_le_left c b) (scaleBri_comm c b ▸ scaleBri_le_left b c),
    fun _ _ _ _ => scaleBri_mono, by decide, fun p hp => by simp only [Nat.shiftRight_eq_div_pow]; omega⟩

/-! ### The packet under-count (43_packetizer.md R219; 70_reset_and_hazards.md R276) -/

/-- With no spare byte in the payload region the packet count is that of the triplets. -/
theorem carriesAll_of_whole {c : Config} (hw : c.WellFormed) (hwhole : c.payloadCap % 3 = 0) (n : Nat) :
    carriesAll c n (c.totalPackets n) := by
  have hcap : c.payloadCap = 3 * c.ledsPerPacket := by unfold Config.ledsPerPacket; omega
  have hper : 0 < c.ledsPerPacket := (triplets_fit hw).1
  have hround : 3 * n < c.payloadCap * (c.totalPackets n + 1) + 1 - c.payloadCap := by
    have hdiv := Nat.lt_mul_div_succ (3 * n + c.payloadCap - 1) (show 0 < c.payloadCap by omega)
    unfold Config.totalPackets
    omega
  rw [hcap, Nat.mul_succ, Nat.mul_assoc, Nat.mul_comm c.ledsPerPacket] at hround
  unfold carriesAll
  omega

/-- `MAX_BYTES = 1400`: 464 triplets and one spare byte. -/
theorem carriesAll_default_iff (n : Nat) :
    carriesAll Config.default n (Config.default.totalPackets n) ↔ n ≤ (3 * n + 1392) / 1393 * 464 := Iff.rfl

/-- Settles O58: three packets fall short of 1393 LEDs, and one more LED makes a fourth. -/
theorem undercountNeedsASpareByte : Obligations.UndercountNeedsASpareByte := by
  unfold Obligations.UndercountNeedsASpareByte
  simp only [carriesAll_default_iff]
  exact ⟨fun c n hw hwhole => carriesAll_of_whole hw hwhole n, fun n hn => by omega, by decide, by decide⟩

/-! ### Results of sends (43_packetizer.md R222, R223; 60_exceptions.md R246) -/

/-- A frame loop that finds no answer at hand, or the one answer that a packet handed over whole waits for, leaves
none. -/
theorem frameLoop_uses_answers (n : Nat) {s t : State} {u : Upload}
    (hans : s.txr = [] ∨ ∃ r, s.txr = [r] ∧ u.pos = s.cfg.maxBytes) (h : frameLoop n s u = .next t) : t.txr = [] := by
  obtain ⟨hwait, hstop⟩ | ⟨r, rest, htxr, _, hret⟩ := sendPacket_cases s u
  · rw [frameLoop_waits n hwait] at h
    cases h
    obtain hnone | ⟨r, hone, hpos⟩ := hans
    · exact hnone
    · have hnow : u.pos ≤ (advance s u).pos := Nat.le_add_right _ _
      obtain hstall | hnone := hstop
      · omega
      · exact hnone
  · have hrest : rest = [] := by
      obtain hnone | ⟨r', hone, _⟩ := hans
      · simp [hnone] at htxr
      · exact (List.cons.inj (htxr.symm.trans hone)).2
    subst hrest
    cases n with
    | zero => rw [frameLoop_zero_returns hret] at h; cases h; rfl
    | succ n =>
      cases hbuild : buildPacket { handOver s u with txr := [] } (u.seq + 1#8) u.cur (countFailure r u.failed) with
      | none => rw [frameLoop_succ_faults hret hbuild] at h; cases h
      | some v =>
        rw [frameLoop_succ_returns hret hbuild] at h
        exact frameLoop_uses_answers n (.inl rfl) h

theorem execUpload_no_answers {s t : State} (hnone : s.txr = []) (h : exec .upload s = .next t) : t.txr = [] := by
  simp only [exec, execUpload] at h
  split at h
  · cases h; exact hnone
  · split at h
    · exact frameLoop_uses_answers _ (.inl hnone) h
    · cases h

theorem runWord_no_answers {w : CmdWord} {s t : State} (hnone : s.txr = []) (h : runWord w s = .next t) :
    t.txr = [] := by
  unfold runWord at h
  split at h
  next i _ =>
    by_cases hi : i = .upload
    · exact execUpload_no_answers hnone (hi ▸ h)
    · exact (exec_sameLines hi h).1.txr.trans hnone
  next => cases h; exact hnone

theorem ResultsAwaited.none_of_idle {s : State} (h : ResultsAwaited s) (hidle : s.upload = none) : s.txr = [] := by
  obtain hnone | ⟨u, _, hup, _⟩ := h
  · exact hnone
  · simp [hidle] at hup

/-- Every step consumes the results at hand or drops them. -/
theorem step_no_answers {s t : State} (hg : Good s) (hr : ResultsAwaited s) (h : step s = .next t) : t.txr = [] := by
  obtain ⟨_, ⟨_, rfl⟩ | hheld | hresumed | hidle | haccepted⟩ := step_cases h
  · rfl
  · obtain ⟨_, hrsp, _, rfl⟩ := hheld
    refine hr.none_of_idle (Option.not_isSome_iff_eq_none.mp fun hup => ?_)
    simp [hg.quiet hup] at hrsp
  · obtain ⟨_, _, u, hup, hrun⟩ := hresumed
    refine frameLoop_uses_answers _ ?_ hrun
    refine hr.imp_right ?_
    rintro ⟨v, r, hv, hpos, htxr⟩
    obtain rfl : u = v := Option.some.inj (hup.symm.trans hv)
    exact ⟨r, htxr, hpos⟩
  · obtain ⟨_, _, hup, _, rfl⟩ := hidle
    exact hr.none_of_idle hup
  · obtain ⟨w, rest, hacc, hrun⟩ := haccepted
    exact runWord_no_answers (s := accepted s rest) (hr.none_of_idle hacc.noUpload) hrun

theorem ResultsAwaited.resultPulse {s : State} (h : ResultsAwaited s) (r : SendResult) :
    ResultsAwaited (resultPulse r s) := by
  by_cases hawait : ∃ u, s.upload = some u ∧ u.pos = s.cfg.maxBytes ∧ s.txr = []
  · obtain ⟨u, hup, hpos, htxr⟩ := hawait
    rw [resultPulse_awaited r hup hpos htxr]
    exact .inr ⟨u, r, hup, hpos, rfl⟩
  · rwa [resultPulse_ignored r fun u hup hpos htxr => hawait ⟨u, hup, hpos, htxr⟩]

/-- Settles O60: only `resultPulse` brings a result, where one is awaited, and no step leaves one. -/
theorem noResultIsPendingOutsideUpload : Obligations.NoResultIsPendingOutsideUpload :=
  ⟨fun _ => .inl rfl, fun _ _ _ _ r h => ⟨h, h, h, h, h.resultPulse r⟩, fun _ _ hg hr hstep =>
    have hnone := step_no_answers hg hr hstep
    ⟨hnone, .inl hnone⟩⟩

/-! ### An `UPLOAD` that waits and is gone on with (43_packetizer.md R221 to R223)

The frame loop sees the state and the packet under way only through `sendPacket`; a send that waits and is gone on with
hands over the same bytes as one that finds all the room and the answer at once. -/

/-- The room of the Transport after it takes `more` bytes, or puts no bound on them any longer. -/
def moreRoom (room : Option Nat) : Option Nat → Option Nat
  | none => none
  | some more => room.map (fun r => r + more)

/-- The Transport gives more answers and more room. -/
def supply (answers : List SendResult) (more : Option Nat) (s : State) : State :=
  { s with txr := s.txr ++ answers, txRoom := moreRoom s.txRoom more }

@[simp] theorem supply_cfg (answers : List SendResult) (more : Option Nat) (s : State) :
    (supply answers more s).cfg = s.cfg := rfl

@[simp] theorem supply_totalPkts (answers : List SendResult) (more : Option Nat) (s : State) :
    (supply answers more s).totalPkts = s.totalPkts := rfl

theorem supply_nothing (s : State) : supply [] (some 0) s = s := by
  cases s
  simp [supply, moreRoom]

theorem beatsNow_le_room {s : State} {r : Nat} (h : s.txRoom = some r) (u : Upload) : beatsNow s u ≤ r := by
  simp [beatsNow, takeable, h]

/-- What the Transport takes at first and what it takes once it has more room is what it takes with that room at
once. -/
theorem beatsNow_supply (answers : List SendResult) (more : Option Nat) (s : State) (u : Upload) :
    beatsNow s u + beatsNow (supply answers more (handOver s u)) (advance s u) =
      beatsNow (supply answers more s) u := by
  cases hroom : s.txRoom <;> cases more <;>
    simp only [beatsNow, takeable, supply, moreRoom, handOver_txRoom, handOver_cfg, advance_pos, hroom,
      Option.map_some, Option.map_none] <;>
    omega

theorem advance_supply (answers : List SendResult) (more : Option Nat) (s : State) (u : Upload) :
    advance (supply answers more (handOver s u)) (advance s u) = advance (supply answers more s) u := by
  have hbeats := beatsNow_supply answers more s u
  simp only [advance] at hbeats ⊢
  rw [Nat.add_assoc, hbeats]

theorem moreRoom_handOver (more : Option Nat) (s : State) (u : Upload) :
    moreRoom (s.txRoom.map (fun r => r - beatsNow s u)) more =
      (moreRoom s.txRoom more).map (fun r => r - beatsNow s u) := by
  cases hroom : s.txRoom with
  | none => cases more <;> rfl
  | some r =>
    have hle := beatsNow_le_room hroom u
    cases more with
    | none => rfl
    | some m => simp only [moreRoom, Option.map_some, Option.some.injEq]; omega

theorem handOver_supply (answers : List SendResult) (more : Option Nat) (s : State) (u : Upload) :
    handOver (supply answers more (handOver s u)) (advance s u) = handOver (supply answers more s) u := by
  have hbeats := beatsNow_supply answers more s u
  have htx : (handOver (supply answers more (handOver s u)) (advance s u)).tx =
      (handOver (supply answers more s) u).tx := by
    simp only [handOver_tx]
    rw [← hbeats, List.take_add, List.drop_drop]
    exact List.append_assoc _ _ _
  have hroom : (handOver (supply answers more (handOver s u)) (advance s u)).txRoom =
      (handOver (supply answers more s) u).txRoom := by
    have hmore : (supply answers more (handOver s u)).txRoom =
        (moreRoom s.txRoom more).map (fun r => r - beatsNow s u) := moreRoom_handOver more s u
    simp only [handOver_txRoom, hmore, Option.map_map, ← hbeats]
    congr 1
    funext r
    exact Nat.sub_sub _ _ _
  calc handOver (supply answers more (handOver s u)) (advance s u)
      = { supply answers more s with
          tx := (handOver (supply answers more (handOver s u)) (advance s u)).tx
          txRoom := (handOver (supply answers more (handOver s u)) (advance s u)).txRoom } := rfl
    _ = handOver (supply answers more s) u := by rw [htx, hroom]; rfl

/-- A send gone on with ends as one that had the room and the answers from its start. -/
theorem sendPacket_supply (answers : List SendResult) (more : Option Nat) (s : State) (u : Upload) :
    sendPacket (supply answers more (handOver s u)) (advance s u) = sendPacket (supply answers more s) u := by
  simp only [sendPacket, handOver_supply, advance_supply]
  rfl

theorem frameLoop_congr (n : Nat) {s s' : State} {u u' : Upload} (hsend : sendPacket s u = sendPacket s' u')
    (hseq : u.seq = u'.seq) (hcur : u.cur = u'.cur) : frameLoop n s u = frameLoop n s' u' := by
  cases n <;> simp only [frameLoop, hsend, hseq, hcur]

/-- A send that stalls or finds no answer. -/
theorem sendPacket_waits {s : State} {u : Upload} (h : (advance s u).pos < s.cfg.maxBytes ∨ s.txr = []) :
    sendPacket s u = .waiting { handOver s u with upload := some (advance s u) } := by
  obtain ⟨hwait, _⟩ | ⟨r, rest, htxr, hfull, _⟩ := sendPacket_cases s u
  · exact hwait
  · rw [htxr] at h
    exact absurd (h.resolve_right (List.cons_ne_nil r rest)) (Nat.not_lt.mpr hfull)

/-- A send of a whole packet that finds an answer. -/
theorem sendPacket_answered {s : State} {u : Upload} {r : SendResult} {rest : List SendResult}
    (hfull : s.cfg.maxBytes ≤ (advance s u).pos) (htxr : s.txr = r :: rest) :
    sendPacket s u = .returned { handOver s u with txr := rest } (countFailure r u.failed) := by
  obtain ⟨_, hstall | hnone⟩ | ⟨r', rest', htxr', _, hret⟩ := sendPacket_cases s u
  · exact absurd hstall (Nat.not_lt.mpr hfull)
  · rw [hnone] at htxr; cases htxr
  · rw [htxr] at htxr'
    cases htxr'
    exact hret

/-- The frame loop has the packet under way as its argument and does not look at the state for it. -/
theorem frameLoop_upload (n : Nat) (s : State) (u : Upload) (up : Option Upload) :
    frameLoop n { s with upload := up } u = frameLoop n s u := by
  obtain ⟨hwait, hstop⟩ | ⟨r, rest, htxr, hfull, hret⟩ := sendPacket_cases s u
  · rw [frameLoop_waits n hwait, frameLoop_waits n (sendPacket_waits (s := { s with upload := up }) hstop)]
    rfl
  · have hret' := sendPacket_answered (s := { s with upload := up }) hfull htxr
    cases n with
    | zero => rw [frameLoop_zero_returns hret, frameLoop_zero_returns hret']; rfl
    | succ n =>
      have hsame : ({ handOver { s with upload := up } u with txr := rest } : State) =
          { { handOver s u with txr := rest } with upload := up } := rfl
      have hbuild' := buildPacket_lines { handOver s u with txr := rest } up (handOver s u).txRoom rest
        (handOver s u).tx (u.seq + 1#8) u.cur (countFailure r u.failed)
      rw [hsame] at hret'
      cases hbuild : buildPacket { handOver s u with txr := rest } (u.seq + 1#8) u.cur (countFailure r u.failed) with
      | none => rw [frameLoop_succ_faults hret hbuild, frameLoop_succ_faults hret' (hbuild'.trans hbuild)]
      | some v =>
        rw [frameLoop_succ_returns hret hbuild, frameLoop_succ_returns hret' (hbuild'.trans hbuild)]
        exact frameLoop_upload n _ v up

/-- A packet that the Transport takes whole as it is leaves what is added of the room and the answers. -/
theorem sendPacket_supply_answered (answers : List SendResult) (more : Option Nat) {s : State} {u : Upload}
    {r : SendResult} {rest : List SendResult} (hfull : s.cfg.maxBytes ≤ (advance s u).pos) (htxr : s.txr = r :: rest) :
    sendPacket (supply answers more s) u =
      .returned (supply answers more { handOver s u with txr := rest }) (countFailure r u.failed) := by
  have hsplit := beatsNow_supply answers more s u
  have hrest : beatsNow (supply answers more (handOver s u)) (advance s u) = 0 := by
    have hle := beatsNow_le (supply answers more (handOver s u)) (advance s u)
    rw [supply_cfg, handOver_cfg] at hle
    omega
  have hbeats : beatsNow (supply answers more s) u = beatsNow s u := by omega
  have hfull' : s.cfg.maxBytes ≤ (advance (supply answers more s) u).pos := by
    rw [advance_pos, hbeats]; exact hfull
  have htxr' : (supply answers more s).txr = r :: (rest ++ answers) := congrArg (· ++ answers) htxr
  have hroom : (handOver (supply answers more s) u).txRoom = moreRoom (handOver s u).txRoom more := by
    rw [handOver_txRoom, handOver_txRoom, moreRoom_handOver, hbeats]
    rfl
  have htx : (handOver (supply answers more s) u).tx = (handOver s u).tx := by
    rw [handOver_tx, handOver_tx, hbeats]
    rfl
  rw [sendPacket_answered (s := supply answers more s) hfull' htxr']
  congr 1
  calc ({ handOver (supply answers more s) u with txr := rest ++ answers } : State)
      = { supply answers more s with
          txr := rest ++ answers
          txRoom := (handOver (supply answers more s) u).txRoom
          tx := (handOver (supply answers more s) u).tx } := rfl
    _ = supply answers more { handOver s u with txr := rest } := by rw [hroom, htx]; rfl

theorem fillLoop_seq (s : State) (k : Nat) {u v : Upload} (h : fillLoop s k u = some v) : v.seq = u.seq := by
  induction k generalizing u with
  | zero => cases h; rfl
  | succ k ih =>
    unfold fillLoop at h
    split at h
    · split at h
      · exact (ih h).trans (putTriplet_seq _ u)
      · cases h
    · cases h; rfl

theorem buildPacket_seq {s : State} {seq failed : Byte} {cur : Half} {u : Upload}
    (h : buildPacket s seq cur failed = some u) : u.seq = seq := by
  obtain ⟨v, hfill, rfl⟩ := Option.map_eq_some_iff.mp h
  exact fillLoop_seq s _ hfill

@[simp] theorem buildPacket_supply (answers : List SendResult) (more : Option Nat) (s : State) (seq failed : Byte)
    (cur : Half) : buildPacket (supply answers more s) seq cur failed = buildPacket s seq cur failed :=
  buildPacket_lines s s.upload (moreRoom s.txRoom more) (s.txr ++ answers) s.tx seq cur failed

/-- Where the frame loop waits, it goes on as if it had had the room and the answers from its start. -/
theorem frameLoop_supply (answers : List SendResult) (more : Option Nat) (n : Nat) {s t : State} {u v : Upload}
    (hn : u.seq.toNat + n = s.totalPkts.toNat) (h : frameLoop n s u = .next t) (hup : t.upload = some v) :
    resumeUpload v (supply answers more t) = frameLoop n (supply answers more s) u := by
  obtain ⟨hwait, _⟩ | ⟨r, rest, htxr, hfull, hret⟩ := sendPacket_cases s u
  · rw [frameLoop_waits n hwait] at h
    cases h
    cases hup
    have hleft : s.totalPkts.toNat - u.seq.toNat = n := by omega
    calc resumeUpload (advance s u) (supply answers more { handOver s u with upload := some (advance s u) })
        = frameLoop n { supply answers more (handOver s u) with upload := some (advance s u) } (advance s u) := by
          rw [← hleft]; rfl
      _ = frameLoop n (supply answers more (handOver s u)) (advance s u) := frameLoop_upload n _ _ _
      _ = frameLoop n (supply answers more s) u := frameLoop_congr n (sendPacket_supply answers more s u) rfl rfl
  · have hret' := sendPacket_supply_answered answers more hfull htxr
    cases n with
    | zero => rw [frameLoop_zero_returns hret] at h; cases h; cases hup
    | succ n =>
      cases hbuild : buildPacket { handOver s u with txr := rest } (u.seq + 1#8) u.cur (countFailure r u.failed) with
      | none => rw [frameLoop_succ_faults hret hbuild] at h; cases h
      | some w =>
        rw [frameLoop_succ_returns hret hbuild] at h
        rw [frameLoop_succ_returns hret' ((buildPacket_supply ..).trans hbuild)]
        refine frameLoop_supply answers more n ?_ h hup
        rw [buildPacket_seq hbuild, BitVec.toNat_add]
        simp only [handOver_totalPkts, BitVec.toNat_ofNat]
        omega

theorem exec_upload_supply (answers : List SendResult) (more : Option Nat) {s t : State} {v : Upload}
    (h : exec .upload s = .next t) (hup : t.upload = some v) :
    resumeUpload v (supply answers more t) = exec .upload (supply answers more s) := by
  simp only [exec, execUpload, supply_totalPkts, buildPacket_supply] at h ⊢
  split at h
  next => cases h; cases hup
  next k hk =>
    split at h
    next u hbuild =>
      have hseq : u.seq.toNat = 1 := by rw [buildPacket_seq hbuild]; rfl
      exact frameLoop_supply answers more k (by omega) h hup
    next => cases h

theorem TransmitOnly.rst {s t : State} (h : TransmitOnly s t) : t.rst = s.rst := by rw [h]

/-- The next step of a block that waits inside `UPLOAD`. -/
theorem step_supply (answers : List SendResult) (more : Option Nat) {s t : State} {v : Upload} (hw : s.cfg.WellFormed)
    (hrst : s.rst = false) (hsent : TransmitOnly s t) (hwaits : WaitsOrAnswersOk t) (hup : t.upload = some v) :
    step (supply answers more t) = resumeUpload v (supply answers more t) := by
  have hrsp : t.rsp = none := by
    obtain ⟨_, hrsp⟩ | ⟨hidle, _⟩ := hwaits
    · exact hrsp
    · rw [hidle] at hup; cases hup
  have hw' : (supply answers more t).cfg.WellFormed := hsent.cfg ▸ hw
  exact step_resuming hw' (hsent.rst.trans hrst) hrsp hup

theorem step_supply_of_exec_upload (answers : List SendResult) (more : Option Nat) {s t : State}
    (hw : s.cfg.WellFormed) (hrst : s.rst = false) (hrsp : s.rsp = none) (h : exec .upload s = .next t)
    (hup : t.upload.isSome = true) : step (supply answers more t) = exec .upload (supply answers more s) := by
  obtain ⟨v, hv⟩ := Option.isSome_iff_exists.mp hup
  rw [step_supply answers more hw hrst (execUpload_transmitOnly h) (execUpload_waitsOrAnswersOk hrsp h) hv,
    exec_upload_supply answers more h hv]

/-- A step of a good state inside `UPLOAD`, as the frame loop over the packets after the one under way. -/
theorem Good.step_uploading {s : State} {u : Upload} (hg : Good s) (hrst : s.rst = false) (hup : s.upload = some u) :
    step s = frameLoop (s.totalPkts.toNat - u.seq.toNat) s u :=
  step_resuming hg.cfgOk hrst (hg.quiet (by simp [hup])) hup

theorem Good.supply {s : State} (h : Good s) (answers : List SendResult) (more : Option Nat) :
    Good (supply answers more s) :=
  h.withLines _ _ _ _ _

theorem step_supply_of_step (answers : List SendResult) (more : Option Nat) {s t : State} {u : Upload} (hg : Good s)
    (hrst : s.rst = false) (hu : s.upload = some u) (h : step s = .next t) (hup : t.upload.isSome = true) :
    step (supply answers more t) = step (supply answers more s) := by
  obtain ⟨v, hv⟩ := Option.isSome_iff_exists.mp hup
  have hseq := (hg.uploadOk u hu).seqHigh
  rw [(hg.supply answers more).step_uploading hrst hu, supply_totalPkts]
  rw [hg.step_uploading hrst hu] at h
  rw [step_supply answers more hg.cfgOk hrst (frameLoop_transmitOnly _ h)
    (frameLoop_waitsOrAnswersOk _ (hg.quiet (by simp [hu])) h) hv]
  exact frameLoop_supply answers more _ (by omega) h hv

/-- With no bound on the room, only the answers can be missing. -/
theorem frameLoop_unbounded (n : Nat) {s t : State} {u : Upload} (hroom : s.txRoom = none)
    (h : frameLoop n s u = .next t) (hup : t.upload.isSome = true) : t.txRoom = none ∧ t.txr = [] := by
  have hroom' : (handOver s u).txRoom = none := by rw [handOver_txRoom, hroom]; rfl
  obtain ⟨hwait, hstop⟩ | ⟨r, rest, _, _, hret⟩ := sendPacket_cases s u
  · rw [frameLoop_waits n hwait] at h
    cases h
    have hfull : ¬ (advance s u).pos < s.cfg.maxBytes := by
      rw [advance_pos, beatsNow_of_room hroom]; omega
    exact ⟨hroom', hstop.resolve_left hfull⟩
  · cases n with
    | zero => rw [frameLoop_zero_returns hret] at h; cases h; cases hup
    | succ n =>
      cases hbuild : buildPacket { handOver s u with txr := rest } (u.seq + 1#8) u.cur (countFailure r u.failed) with
      | none => rw [frameLoop_succ_faults hret hbuild] at h; cases h
      | some v =>
        rw [frameLoop_succ_returns hret hbuild] at h
        exact frameLoop_unbounded n (s := { handOver s u with txr := rest }) hroom' h hup

theorem exec_upload_unbounded {s t : State} (hroom : s.txRoom = none) (h : exec .upload s = .next t)
    (hup : t.upload.isSome = true) : t.txRoom = none ∧ t.txr = [] := by
  simp only [exec, execUpload] at h
  split at h
  · cases h; cases hup
  · split at h
    · exact frameLoop_unbounded _ hroom h hup
    · cases h

/-- Settles O53: `frameLoop_supply`, of an `UPLOAD` just begun and of one gone on with. -/
theorem lateAnswersGiveTheSameFrame : Obligations.LateAnswersGiveTheSameFrame := by
  refine ⟨fun s t xs ys hw hrst hrsp hroom h hup => ?_, fun s t ys more hw hrst hrsp h hup => ⟨?_, ?_⟩,
    fun s t ys more hg hrst hu h hup => ?_⟩
  · obtain ⟨hroom', htxr⟩ := exec_upload_unbounded (s := { s with txr := xs }) hroom h hup
    have hlate : supply ys none t = { t with txr := ys } := by
      simp only [supply, moreRoom, htxr, ← hroom', List.nil_append]
    have honce : supply ys none { s with txr := xs } = { s with txr := xs ++ ys } := by
      simp only [supply, moreRoom, ← hroom]
    rw [← hlate, ← honce]
    exact step_supply_of_exec_upload ys none (s := { s with txr := xs }) hw hrst hrsp h hup
  · exact step_supply_of_exec_upload ys (some more) hw hrst hrsp h hup
  · exact step_supply_of_exec_upload ys none hw hrst hrsp h hup
  · obtain ⟨u, hu⟩ := Option.isSome_iff_exists.mp hu
    exact ⟨step_supply_of_step ys (some more) hg hrst hu h hup, step_supply_of_step ys none hg hrst hu h hup⟩

/-- A block that waits inside `UPLOAD`, given nothing, waits on: nothing is a supply too. -/
theorem step_waiting {s t : State} {u v : Upload} {n : Nat} (hw : s.cfg.WellFormed) (hrst : s.rst = false)
    (hrsp : s.rsp = none) (hn : u.seq.toNat + n = s.totalPkts.toNat) (h : frameLoop n s u = .next t)
    (hup : t.upload = some v) : step t = .next t := by
  have hstep := step_supply [] (some 0) hw hrst (frameLoop_transmitOnly n h) (frameLoop_waitsOrAnswersOk n hrsp h) hup
  rwa [frameLoop_supply [] (some 0) n hn h hup, supply_nothing, supply_nothing, h] at hstep

/-! ### Where an `UPLOAD` stands after some packets (43_packetizer.md R210, R215, R216, R221 to R224)

`frameLoop_packets` is the induction: an `UPLOAD` at any byte of any packet, of which the Transport takes and answers
the next `j` packets, stands at the start of the packet after them. How it ends, or where it stops, is then one more
send. -/

/-- Every entry that the frame carries holds a value. -/
def FrameReadable (s : State) : Prop :=
  ∀ k, k < min s.ledCount.toNat (s.totalPkts.toNat * s.cfg.ledsPerPacket) → (readEntry s k).isSome = true

theorem Good.frameReadable {s : State} (h : Good s) : FrameReadable s :=
  fun k hk => (h.fbComplete k).mpr (hk.trans_le (Nat.min_le_left _ _))

/-- The state once the Transport has taken `m` of the beats `rest` and given `j` answers. -/
def afterBeats (s : State) (rest : List Beat) (m j : Nat) : State :=
  { s with tx := s.tx ++ rest.take m, txRoom := s.txRoom.map (fun r => r - m), txr := s.txr.drop j }

section AfterBeats

variable (s : State) (rest : List Beat) (m j : Nat)

@[simp] theorem afterBeats_cfg : (afterBeats s rest m j).cfg = s.cfg := rfl

@[simp] theorem afterBeats_totalPkts : (afterBeats s rest m j).totalPkts = s.totalPkts := rfl

@[simp] theorem afterBeats_txRoom : (afterBeats s rest m j).txRoom = s.txRoom.map (fun r => r - m) := rfl

@[simp] theorem afterBeats_txr : (afterBeats s rest m j).txr = s.txr.drop j := rfl

@[simp] theorem restOfFrame_afterBeats (seq pos : Nat) :
    restOfFrame (afterBeats s rest m j) seq pos = restOfFrame s seq pos := rfl

@[simp] theorem buildPacket_afterBeats (seq failed : Byte) (cur : Half) :
    buildPacket (afterBeats s rest m j) seq cur failed = buildPacket s seq cur failed :=
  buildPacket_lines s s.upload _ _ _ seq cur failed

theorem afterBeats_zero : afterBeats s rest 0 0 = s := by
  cases s
  simp [afterBeats]

theorem afterBeats_afterBeats (m' j' : Nat) :
    afterBeats (afterBeats s rest m j) (rest.drop m) m' j' = afterBeats s rest (m + m') (j + j') := by
  simp [afterBeats, List.take_add, List.append_assoc, Function.comp_def, Nat.sub_sub]

end AfterBeats

/-! ### What is left of a frame -/

/-- The bytes of the packet under way come first. -/
theorem take_restOfFrame (s : State) (k : Nat) {m pos : Nat} (hm : m ≤ s.cfg.maxBytes - pos) :
    (restOfFrame s k pos).take m = ((packetOf s k).drop pos).take m := by
  rw [restOfFrame, List.take_append_of_le_length (by simpa using hm)]

theorem drop_restOfFrame {s : State} {k : Nat} (hk : k < s.totalPkts.toNat) (pos : Nat) :
    (restOfFrame s k pos).drop (s.cfg.maxBytes - pos) = restOfFrame s (k + 1) 0 := by
  rw [restOfFrame_next hk, List.drop_append_of_le_length (by simp), List.drop_of_length_le (by simp), List.nil_append]

theorem restOfFrame_length (s : State) (k : Nat) {pos : Nat} (hpos : pos ≤ s.cfg.maxBytes) :
    (restOfFrame s k pos).length = (s.totalPkts.toNat - k + 1) * s.cfg.maxBytes - pos := by
  simp [restOfFrame, List.length_flatMap, Nat.succ_mul]
  omega

/-! ### Counting failures -/

theorem failures_take_add (answers : List SendResult) (i j : Nat) :
    failures (answers.take (i + j)) = failures (answers.take i) + failures ((answers.drop i).take j) := by
  rw [List.take_add, failures, List.count_append]
  rfl

theorem failures_take_le (answers : List SendResult) (j : Nat) : failures (answers.take j) ≤ j :=
  List.count_le_length.trans (List.length_take_le j answers)

/-- The count of failures as a number; 43_packetizer.md R216 has it fit the byte. -/
theorem countFailure_eq (r : SendResult) (failed : Byte) :
    countFailure r failed = BitVec.ofNat 8 (failed.toNat + failures [r]) := by
  cases r with
  | ok => simp [countFailure, failures]
  | fail => exact BitVec.eq_of_toNat_eq (by simp [countFailure, failures])

theorem UploadOk.countFailure_toNat {s : State} {u : Upload} (h : UploadOk s u) (r : SendResult) :
    (countFailure r u.failed).toNat = u.failed.toNat + failures [r] := by
  have hone : failures [r] ≤ 1 := failures_take_le [r] 1
  have hlow := h.failedOk
  have hseq := u.seq.isLt
  rw [countFailure_eq, BitVec.toNat_ofNat]
  omega

/-! ### One packet -/

/-- Every packet of a frame whose entries hold values is built, and it is the one of the closed form. -/
theorem buildPacket_of_readable {s : State} (hw : s.cfg.WellFormed) (hr : FrameReadable s) {seq failed : Byte}
    {cur : Half} (hlow : 1 ≤ seq.toNat) (hhigh : seq.toNat ≤ s.totalPkts.toNat) (hfailed : failed.toNat < seq.toNat)
    (hcur : cur.toNat = min s.ledCount.toNat ((seq.toNat - 1) * s.cfg.ledsPerPacket)) :
    ∃ v, buildPacket s seq cur failed = some v ∧ UploadOk s v ∧ v.seq = seq ∧ v.pos = 0 ∧ v.failed = failed := by
  have hcarried : seq.toNat * s.cfg.ledsPerPacket ≤ s.totalPkts.toNat * s.cfg.ledsPerPacket :=
    Nat.mul_le_mul_right _ hhigh
  obtain ⟨v, hbuild, hv⟩ := buildPacket_spec hw (failed := failed) hlow hcur fun i hi => hr i (by omega)
  exact ⟨v, hbuild, hv.uploadOk hlow hhigh hfailed, buildPacket_seq hbuild, hv.pos, hv.failedEq⟩

/-- What a send hands over, in the terms of the closed form. -/
theorem handOver_eq_afterBeats {s : State} {u : Upload} (hu : UploadOk s u) :
    handOver s u = afterBeats s (restOfFrame s u.seq.toNat u.pos) (beatsNow s u) 0 := by
  rw [handOver, packetBeats_eq rfl hu.bytesOk, afterBeats, take_restOfFrame s _ (beatsNow_le s u), List.drop_zero]

/-- From byte `pos` of a packet on, the Transport takes all up to byte `upTo`, counted through the packets after it. -/
def RoomUpTo (s : State) (pos upTo : Nat) : Prop := ∀ r, s.txRoom = some r → upTo ≤ pos + r

theorem RoomUpTo.mono {s : State} {pos m n : Nat} (h : RoomUpTo s pos n) (hle : m ≤ n) : RoomUpTo s pos m :=
  fun r hr => hle.trans (h r hr)

theorem RoomUpTo.takeable {s : State} {pos upTo : Nat} (h : RoomUpTo s pos upTo) :
    takeable s.txRoom (upTo - pos) = upTo - pos := by
  cases hr : s.txRoom with
  | none => rfl
  | some r => exact Nat.min_eq_right (Nat.sub_le_iff_le_add'.mpr (h r hr))

/-- A send that meets room for its packet and an answer. -/
theorem sendPacket_whole {s : State} {u : Upload} {r : SendResult} {rest : List SendResult} (hu : UploadOk s u)
    (hroom : RoomUpTo s u.pos s.cfg.maxBytes) (htxr : s.txr = r :: rest) :
    sendPacket s u =
      .returned (afterBeats s (restOfFrame s u.seq.toNat u.pos) (s.cfg.maxBytes - u.pos) 1)
        (countFailure r u.failed) := by
  have hbeats : beatsNow s u = s.cfg.maxBytes - u.pos := hroom.takeable
  have hfull : s.cfg.maxBytes ≤ (advance s u).pos := by rw [advance_pos, hbeats]; omega
  rw [sendPacket_answered hfull htxr, handOver_eq_afterBeats hu, hbeats]
  simp only [afterBeats, htxr, List.drop_one, List.tail_cons]

/-! ### Any number of packets -/

/-- The state in which the Transport has taken and answered `j` packets, from the packet `u` on. -/
def afterPackets (s : State) (u : Upload) (j : Nat) : State :=
  afterBeats s (restOfFrame s u.seq.toNat u.pos) (j * s.cfg.maxBytes - u.pos) j

/-- `v` is the packet under way in that state. -/
structure Reached (s : State) (u : Upload) (j : Nat) (v : Upload) : Prop where
  ok : UploadOk s v
  seq : v.seq.toNat = u.seq.toNat + j
  pos : v.pos = u.pos - j * s.cfg.maxBytes
  failed : v.failed.toNat = u.failed.toNat + failures (s.txr.take j)
  rest : restOfFrame s v.seq.toNat v.pos = (restOfFrame s u.seq.toNat u.pos).drop (j * s.cfg.maxBytes - u.pos)

section Reached

variable {s : State} {u v w : Upload} {i j : Nat}

theorem Reached.refl (hu : UploadOk s u) : Reached s u 0 u where
  ok := hu
  seq := rfl
  pos := by simp
  failed := by simp [failures]
  rest := by simp

theorem Reached.trans (h : Reached s u i v) (h' : Reached (afterPackets s u i) v j w) : Reached s u (i + j) w where
  ok := { h'.ok with }
  seq := by rw [h'.seq, h.seq, Nat.add_assoc]
  pos := by rw [h'.pos, h.pos, afterPackets, afterBeats_cfg, Nat.add_mul, Nat.sub_sub]
  failed := by rw [h'.failed, h.failed, afterPackets, afterBeats_txr, failures_take_add, Nat.add_assoc]
  rest := by
    have hrest : restOfFrame s w.seq.toNat w.pos =
        (restOfFrame s v.seq.toNat v.pos).drop (j * s.cfg.maxBytes - v.pos) := h'.rest
    rw [hrest, h.rest, h.pos, List.drop_drop, Nat.add_mul]
    congr 1
    omega

theorem Reached.uploadOk_afterPackets (h : Reached s u j v) : UploadOk (afterPackets s u j) v :=
  { h.ok with }

/-- What is taken from there on is what is taken of the rest of the frame as a whole. -/
theorem Reached.afterBeats_afterPackets (h : Reached s u j v) (m k : Nat) :
    afterBeats (afterPackets s u j) (restOfFrame (afterPackets s u j) v.seq.toNat v.pos) m k =
      afterBeats s (restOfFrame s u.seq.toNat u.pos) (j * s.cfg.maxBytes - u.pos + m) (j + k) := by
  rw [afterPackets, restOfFrame_afterBeats, h.rest, afterBeats_afterBeats]

/-- The bytes of the packets taken and those of the one reached. -/
theorem Reached.packet_bytes (h : Reached s u j v) (hpos : u.pos ≤ s.cfg.maxBytes) :
    j * s.cfg.maxBytes - u.pos + (s.cfg.maxBytes - v.pos) = (j + 1) * s.cfg.maxBytes - u.pos := by
  rw [h.pos, Nat.succ_mul]
  omega

theorem Reached.room (h : Reached s u j v) (hroom : RoomUpTo s u.pos ((j + 1) * s.cfg.maxBytes)) :
    RoomUpTo (afterPackets s u j) v.pos s.cfg.maxBytes := by
  intro r' hr'
  obtain ⟨r, hr, rfl⟩ := Option.map_eq_some_iff.mp hr'
  have hfits := hroom r hr
  rw [Nat.succ_mul] at hfits
  rw [h.pos]
  omega

/-- What the Transport takes of `j` packets and of the packet after them, it takes of these packets together. -/
theorem Reached.beatsNow (h : Reached s u j v) (hpos : u.pos ≤ s.cfg.maxBytes)
    (hroom : RoomUpTo s u.pos (j * s.cfg.maxBytes)) :
    j * s.cfg.maxBytes - u.pos + beatsNow (afterPackets s u j) v =
      takeable s.txRoom ((j + 1) * s.cfg.maxBytes - u.pos) := by
  rw [Machine.beatsNow, afterPackets, afterBeats_txRoom, afterBeats_cfg, ← h.packet_bytes hpos]
  cases hr : s.txRoom with
  | none => rfl
  | some r =>
    have hfits := hroom r hr
    simp only [takeable, Option.map_some]
    omega

end Reached

/-- The Transport takes and answers what is left of the packet under way, and there is a next one. -/
theorem frameLoop_next_packet (n : Nat) {s : State} {u : Upload} (hw : s.cfg.WellFormed) (hr : FrameReadable s)
    (hu : UploadOk s u) (hn : u.seq.toNat + (n + 1) = s.totalPkts.toNat) (hroom : RoomUpTo s u.pos s.cfg.maxBytes)
    (hans : 1 ≤ s.txr.length) :
    ∃ v, Reached s u 1 v ∧ frameLoop (n + 1) s u = frameLoop n (afterPackets s u 1) v := by
  obtain ⟨r, rest, htxr⟩ := List.exists_cons_of_length_pos hans
  have hseq : (u.seq + 1#8).toNat = u.seq.toNat + 1 := by
    rw [BitVec.toNat_add, BitVec.toNat_ofNat]; omega
  have hcount := countFailure_le r u.failed
  have hfailed := hu.failedOk
  have hpos := hu.posOk
  have hsend := sendPacket_whole hu hroom htxr
  obtain ⟨v, hbuild, hv, hvseq, hvpos, hvfailed⟩ := buildPacket_of_readable hw hr (seq := u.seq + 1#8)
    (failed := countFailure r u.failed) (cur := u.cur) (by omega) (by omega) (by omega) (by rw [hseq]; exact hu.curOk)
  refine ⟨v, ⟨hv, by rw [hvseq, hseq], by omega, ?failed, ?rest⟩, ?run⟩
  case failed =>
    rw [hvfailed, hu.countFailure_toNat, htxr]
    rfl
  case rest => rw [hvseq, hseq, hvpos, Nat.one_mul, drop_restOfFrame (by omega)]
  case run =>
    rw [frameLoop_succ_returns hsend ((buildPacket_afterBeats ..).trans hbuild), afterPackets, Nat.one_mul]

theorem frameLoop_packets (j n : Nat) {s : State} {u : Upload} (hw : s.cfg.WellFormed) (hr : FrameReadable s)
    (hu : UploadOk s u) (hn : u.seq.toNat + (n + j) = s.totalPkts.toNat)
    (hroom : RoomUpTo s u.pos (j * s.cfg.maxBytes)) (hans : j ≤ s.txr.length) :
    ∃ v, Reached s u j v ∧ frameLoop (n + j) s u = frameLoop n (afterPackets s u j) v := by
  induction j generalizing n with
  | zero => exact ⟨u, .refl hu, by rw [afterPackets, Nat.zero_mul, Nat.zero_sub, afterBeats_zero]; rfl⟩
  | succ j ih =>
    obtain ⟨v, hv, hrun⟩ := ih (n + 1) (by omega) (hroom.mono (Nat.mul_le_mul_right _ (Nat.le_succ j))) (by omega)
    have hseq := hv.seq
    have hleft : 1 ≤ (s.txr.drop j).length := by rw [List.length_drop]; omega
    obtain ⟨w, hw', hrun'⟩ := frameLoop_next_packet n (s := afterPackets s u j) hw hr hv.uploadOk_afterPackets
      (by rw [afterPackets, afterBeats_totalPkts]; omega) (hv.room hroom) hleft
    refine ⟨w, hv.trans hw', ?_⟩
    calc frameLoop (n + (j + 1)) s u
        = frameLoop (n + 1 + j) s u := by rw [Nat.add_right_comm, Nat.add_assoc]
      _ = frameLoop n (afterPackets (afterPackets s u j) v 1) w := hrun.trans hrun'
      _ = frameLoop n (afterPackets s u (j + 1)) w := by
        have hbytes := hv.packet_bytes hu.posOk
        have hcfg : (afterPackets s u j).cfg = s.cfg := rfl
        rw [afterPackets, hv.afterBeats_afterPackets, hcfg, Nat.one_mul, hbytes, ← afterPackets]

/-- The Transport takes and answers all packets that are left: the command ends. -/
theorem frameLoop_ends (n : Nat) {s : State} {u : Upload} (hw : s.cfg.WellFormed) (hr : FrameReadable s)
    (hu : UploadOk s u) (hn : u.seq.toNat + n = s.totalPkts.toNat)
    (hroom : RoomUpTo s u.pos ((n + 1) * s.cfg.maxBytes)) (hans : n + 1 ≤ s.txr.length) :
    frameLoop n s u = .next (endFrame (BitVec.ofNat 8 (u.failed.toNat + failures (s.txr.take (n + 1))))
      (afterBeats s (restOfFrame s u.seq.toNat u.pos) ((n + 1) * s.cfg.maxBytes - u.pos) (n + 1))) := by
  obtain ⟨v, hv, hrun⟩ := frameLoop_packets n 0 hw hr hu (by omega)
    (hroom.mono (Nat.mul_le_mul_right _ (Nat.le_succ n))) (by omega)
  obtain ⟨r, rest, htxr⟩ := List.exists_cons_of_length_pos (l := s.txr.drop n) (by rw [List.length_drop]; omega)
  have hsend := sendPacket_whole hv.uploadOk_afterPackets (hv.room hroom) htxr
  have hcfg : (afterPackets s u n).cfg = s.cfg := rfl
  rw [hv.afterBeats_afterPackets, hcfg, hv.packet_bytes hu.posOk] at hsend
  have hfailed : countFailure r v.failed = BitVec.ofNat 8 (u.failed.toNat + failures (s.txr.take (n + 1))) := by
    rw [countFailure_eq, hv.failed, failures_take_add, htxr, Nat.add_assoc]
    rfl
  rw [Nat.zero_add] at hrun
  rw [hrun, frameLoop_zero_returns hsend, hfailed]

/-- Where a send waits, the block waits with what was taken. -/
theorem frameLoop_waits_afterBeats (n : Nat) {s : State} {u : Upload} (hu : UploadOk s u)
    (hstop : (advance s u).pos < s.cfg.maxBytes ∨ s.txr = []) :
    frameLoop n s u =
      .next { afterBeats s (restOfFrame s u.seq.toNat u.pos) (beatsNow s u) 0 with upload := some (advance s u) } := by
  rw [frameLoop_waits n (sendPacket_waits hstop), handOver_eq_afterBeats hu]

/-- The Transport takes and answers `j` packets and then stalls inside the next one, or takes it whole and does not
answer: it has taken `m` bytes of what was left, and the block waits there. -/
theorem frameLoop_stops (j n : Nat) {s : State} {u : Upload} {m : Nat} (hw : s.cfg.WellFormed) (hr : FrameReadable s)
    (hu : UploadOk s u) (hn : u.seq.toNat + (n + j) = s.totalPkts.toNat)
    (hroom : RoomUpTo s u.pos (j * s.cfg.maxBytes)) (hans : j ≤ s.txr.length)
    (hm : takeable s.txRoom ((j + 1) * s.cfg.maxBytes - u.pos) = m)
    (hstop : u.pos + m < (j + 1) * s.cfg.maxBytes ∨ s.txr.length = j) :
    ∃ v, frameLoop (n + j) s u =
        .next { afterBeats s (restOfFrame s u.seq.toNat u.pos) m j with upload := some v } ∧
      v.seq.toNat = u.seq.toNat + j ∧ v.pos = u.pos + m - j * s.cfg.maxBytes ∧
      v.failed.toNat = u.failed.toNat + failures (s.txr.take j) := by
  obtain ⟨v, hv, hrun⟩ := frameLoop_packets j n hw hr hu hn hroom hans
  have htaken := hv.beatsNow hu.posOk hroom
  rw [hm] at htaken
  have hpos : (advance (afterPackets s u j) v).pos = u.pos + m - j * s.cfg.maxBytes := by
    rw [advance_pos, hv.pos]
    omega
  have hwaits := frameLoop_waits_afterBeats n hv.uploadOk_afterPackets <| hstop.imp
    (fun h => by rw [Nat.succ_mul] at h; rw [hpos, afterPackets, afterBeats_cfg]; omega)
    fun h => List.drop_of_length_le (Nat.le_of_eq h)
  rw [hv.afterBeats_afterPackets, htaken] at hwaits
  exact ⟨_, hrun.trans hwaits, hv.seq, hpos, hv.failed⟩

/-! ### An `UPLOAD` under way, in the terms of the statements -/

theorem responseWord_counts (sent failed : Byte) :
    responseWord .ok (0x00#8 ++ sent ++ failed) = 0x00#8 ++ 0x00#8 ++ sent ++ failed :=
  responseWord_packHsv ⟨0x00#8, sent, failed⟩

/-- The Transport has room for all that is left and answers. -/
theorem frameLoop_completes_frame {s : State} {u : Upload} (hw : s.cfg.WellFormed) (hr : FrameReadable s)
    (hu : UploadOk s u) (hroom : RoomUpTo s u.pos ((s.totalPkts.toNat - u.seq.toNat + 1) * s.cfg.maxBytes))
    (hans : s.totalPkts.toNat - u.seq.toNat + 1 ≤ s.txr.length) :
    frameLoop (s.totalPkts.toNat - u.seq.toNat) s u = .next { s with
      upload := none
      tx := s.tx ++ restOfFrame s u.seq.toNat u.pos
      txRoom := s.txRoom.map (fun r => r - ((s.totalPkts.toNat - u.seq.toNat + 1) * s.cfg.maxBytes - u.pos))
      txr := s.txr.drop (s.totalPkts.toNat - u.seq.toNat + 1)
      rsp := some (0x00#8 ++ 0x00#8 ++ s.totalPkts ++
        BitVec.ofNat 8 (u.failed.toNat + failures (s.txr.take (s.totalPkts.toNat - u.seq.toNat + 1)))) } := by
  have hseq := hu.seqHigh
  have hall := restOfFrame_length s u.seq.toNat hu.posOk
  rw [frameLoop_ends _ hw hr hu (by omega) hroom hans, ← responseWord_counts, afterBeats,
    List.take_of_length_le (Nat.le_of_eq hall)]
  rfl

/-- The Transport has room for `m` more bytes, fewer than are left, and answers the sends they complete. -/
theorem frameLoop_stalls {s : State} {u : Upload} {m : Nat} (hw : s.cfg.WellFormed) (hr : FrameReadable s)
    (hu : UploadOk s u) (hrst : s.rst = false) (hrsp : s.rsp = none) (hroom : s.txRoom = some m)
    (hm : u.pos + m < (s.totalPkts.toNat - u.seq.toNat + 1) * s.cfg.maxBytes)
    (hans : (u.pos + m) / s.cfg.maxBytes ≤ s.txr.length) :
    ∃ v t, frameLoop (s.totalPkts.toNat - u.seq.toNat) s u = .next t ∧
      t = { s with
        tx := s.tx ++ (restOfFrame s u.seq.toNat u.pos).take m
        txRoom := some 0
        txr := s.txr.drop ((u.pos + m) / s.cfg.maxBytes)
        upload := some v } ∧
      v.seq.toNat = u.seq.toNat + (u.pos + m) / s.cfg.maxBytes ∧ v.pos = (u.pos + m) % s.cfg.maxBytes ∧
      v.failed.toNat = u.failed.toNat + failures (s.txr.take ((u.pos + m) / s.cfg.maxBytes)) ∧ step t = .next t := by
  have hmin : 10 ≤ s.cfg.maxBytes := hw.1.1
  have hsize : 0 < s.cfg.maxBytes := by omega
  have hseq := hu.seqHigh
  have hpackets := Nat.lt_succ_iff.mp ((Nat.div_lt_iff_lt_mul hsize).mpr hm)
  have htaken := Nat.div_mul_le_self (u.pos + m) s.cfg.maxBytes
  have hnext : u.pos + m < ((u.pos + m) / s.cfg.maxBytes + 1) * s.cfg.maxBytes := by
    rw [Nat.succ_mul]
    exact Nat.lt_div_mul_add hsize
  have hsplit := Nat.sub_add_cancel hpackets
  obtain ⟨v, hrun, hvseq, hvpos, hvfailed⟩ := frameLoop_stops ((u.pos + m) / s.cfg.maxBytes)
    (s.totalPkts.toNat - u.seq.toNat - (u.pos + m) / s.cfg.maxBytes) (m := m) hw hr hu (by omega)
    (fun r h => by rw [hroom] at h; cases h; exact htaken) hans (by rw [hroom, takeable]; omega) (.inl hnext)
  rw [hsplit] at hrun
  refine ⟨v, _, hrun, ?_, hvseq, ?_, hvfailed, step_waiting hw hrst hrsp (by omega) hrun rfl⟩
  · rw [afterBeats, hroom, Option.map_some, Nat.sub_self]
  · rw [hvpos, Nat.mod_eq_sub_div_mul]

/-- The Transport has room for the first packet it does not answer: the block waits behind it. -/
theorem frameLoop_unanswered {s : State} {u : Upload} (hw : s.cfg.WellFormed) (hr : FrameReadable s)
    (hu : UploadOk s u) (hrst : s.rst = false) (hrsp : s.rsp = none)
    (hans : s.txr.length < s.totalPkts.toNat - u.seq.toNat + 1)
    (hroom : RoomUpTo s u.pos ((s.txr.length + 1) * s.cfg.maxBytes)) :
    ∃ v t, frameLoop (s.totalPkts.toNat - u.seq.toNat) s u = .next t ∧
      t = { s with
        tx := s.tx ++ (restOfFrame s u.seq.toNat u.pos).take ((s.txr.length + 1) * s.cfg.maxBytes - u.pos)
        txRoom := s.txRoom.map (fun r => r - ((s.txr.length + 1) * s.cfg.maxBytes - u.pos))
        txr := []
        upload := some v } ∧
      v.seq.toNat = u.seq.toNat + s.txr.length ∧ v.pos = s.cfg.maxBytes ∧
      v.failed.toNat = u.failed.toNat + failures s.txr ∧ step t = .next t := by
  have hseq := hu.seqHigh
  have hsplit := Nat.sub_add_cancel (Nat.lt_succ_iff.mp hans)
  have hpos := hu.posOk
  obtain ⟨v, hrun, hvseq, hvpos, hvfailed⟩ := frameLoop_stops s.txr.length
    (s.totalPkts.toNat - u.seq.toNat - s.txr.length) (m := (s.txr.length + 1) * s.cfg.maxBytes - u.pos) hw hr hu
    (by omega) (hroom.mono (Nat.mul_le_mul_right _ (Nat.le_succ _))) le_rfl hroom.takeable (.inr rfl)
  rw [hsplit] at hrun
  refine ⟨v, _, hrun, ?_, hvseq, ?_, ?_, step_waiting hw hrst hrsp (by omega) hrun rfl⟩
  · rw [afterBeats, List.drop_length]
  · rw [hvpos, Nat.succ_mul]; omega
  · rw [hvfailed, List.take_length]

/-- Settles O52: the three ways an `UPLOAD` that is gone on with can fare. -/
theorem resumedUploadSendsTheRest : Obligations.ResumedUploadSendsTheRest := by
  intro s u hg hrst hup size left answers rest
  have hw := hg.cfgOk
  have hr := hg.frameReadable
  have hu := hg.uploadOk u hup
  have hrsp := hg.quiet (by simp [hup])
  rw [hg.step_uploading hrst hup]
  exact ⟨frameLoop_completes_frame hw hr hu, fun m => frameLoop_stalls hw hr hu hrst hrsp,
    frameLoop_unanswered hw hr hu hrst hrsp⟩

/-! ### An `UPLOAD` from its start -/

/-- With a packet to send, `UPLOAD` is the frame loop from packet 1 on. -/
theorem exec_upload_begins {s : State} (hw : s.cfg.WellFormed) (hr : FrameReadable s) (htotal : 0 < s.totalPkts.toNat) :
    ∃ u, UploadOk s u ∧ exec .upload s = frameLoop (s.totalPkts.toNat - u.seq.toNat) s u ∧
      u.seq.toNat = 1 ∧ u.pos = 0 ∧ u.failed.toNat = 0 := by
  obtain ⟨u, hbuild, hu, hseq, hpos, hfailed⟩ := buildPacket_of_readable hw hr (seq := 1#8) (failed := 0#8)
    (cur := 0#16) (by decide) htotal (by decide) (by simp)
  have hseq' : u.seq.toNat = 1 := congrArg BitVec.toNat hseq
  refine ⟨u, hu, ?_, hseq', hpos, congrArg BitVec.toNat hfailed⟩
  obtain ⟨n, hn⟩ := Nat.exists_eq_add_one_of_ne_zero (Nat.ne_of_gt htotal)
  simp only [exec, execUpload, hn, hbuild, hseq', Nat.add_sub_cancel]

theorem exec_upload_empty {s : State} (h : s.totalPkts.toNat = 0) : exec .upload s = .next (endFrame 0#8 s) := by
  simp only [exec, execUpload, h]

/-- Settles O49: the response of an empty frame has no byte but zeros. -/
theorem emptyFrameSendsNothing : Obligations.EmptyFrameSendsNothing := by
  intro s h
  rw [exec_upload_empty (by rw [h]; rfl), endFrame, h]
  rfl

/-- `UPLOAD` with room for the whole frame and an answer for every send. -/
theorem exec_upload_completes {s : State} (hw : s.cfg.WellFormed) (hr : FrameReadable s)
    (hroom : ∀ r, s.txRoom = some r → s.totalPkts.toNat * s.cfg.maxBytes ≤ r)
    (hans : s.totalPkts.toNat ≤ s.txr.length) :
    exec .upload s = .next { s with
      upload := none
      tx := s.tx ++ frameOf s
      txRoom := s.txRoom.map (fun r => r - s.totalPkts.toNat * s.cfg.maxBytes)
      txr := s.txr.drop s.totalPkts.toNat
      rsp := some (0x00#8 ++ 0x00#8 ++ s.totalPkts ++
        BitVec.ofNat 8 (failures (s.txr.take s.totalPkts.toNat))) } := by
  obtain htotal | htotal := Nat.eq_zero_or_pos s.totalPkts.toNat
  · rw [exec_upload_empty htotal, ← responseWord_counts]
    simp [endFrame, respond, frameOf, htotal, failures]
  · obtain ⟨u, hu, hexec, hseq, hpos, hfailed⟩ := exec_upload_begins hw hr htotal
    have hleft : s.totalPkts.toNat - 1 + 1 = s.totalPkts.toNat := Nat.sub_add_cancel htotal
    have hrun := frameLoop_completes_frame hw hr hu
    simp only [hseq, hpos, hfailed, hleft, ← frameOf_eq_restOfFrame htotal, Nat.zero_add, Nat.sub_zero] at hexec hrun
    rw [hexec]
    exact hrun (fun r h => (Nat.zero_add r).symm ▸ hroom r h) hans

/-- Settles O48: there is no bound on the room. -/
theorem uploadSendsTheFrame : Obligations.UploadSendsTheFrame := by
  intro s hw hroom hans hr
  rw [exec_upload_completes hw hr (by simp [hroom]) hans]
  simp [hroom]

/-- Settles O51: the three ways of O52, from byte 0 of packet 1 on. -/
theorem stalledTransportTakesAPrefix : Obligations.StalledTransportTakesAPrefix := by
  intro s hg hrst hrsp size total answers
  have hw := hg.cfgOk
  have hr := hg.frameReadable
  refine ⟨fun r hroom hshort hans => ?_, fun r hroom hfits hans => ?_, fun hans hroom => ?_⟩
  · have htotal : 0 < s.totalPkts.toNat := Nat.pos_of_mul_pos_right (Nat.zero_lt_of_lt hshort)
    obtain ⟨u, hu, hexec, hseq, hpos, hfailed⟩ := exec_upload_begins hw hr htotal
    have hrun := frameLoop_stalls hw hr hu hrst hrsp hroom
    simp only [hseq, hpos, hfailed, Nat.sub_add_cancel htotal, ← frameOf_eq_restOfFrame htotal, Nat.zero_add,
      Nat.add_comm 1] at hexec hrun
    rw [hexec]
    exact hrun hshort hans
  · rw [exec_upload_completes hw hr (by simpa [hroom] using hfits) hans, hroom]
    rfl
  · have htotal : 0 < s.totalPkts.toNat := Nat.zero_lt_of_lt hans
    obtain ⟨u, hu, hexec, hseq, hpos, hfailed⟩ := exec_upload_begins hw hr htotal
    have hrun := frameLoop_unanswered hw hr hu hrst hrsp
    simp only [RoomUpTo, hseq, hpos, hfailed, Nat.sub_add_cancel htotal, ← frameOf_eq_restOfFrame htotal, Nat.zero_add,
      Nat.add_comm 1, Nat.sub_zero] at hexec hrun
    rw [hexec]
    exact hrun hans hroom

/-- Settles O50: the case of O51 in which there is no answer, and room without bound. -/
theorem silentTransportHangsTheBlock : Obligations.SilentTransportHangsTheBlock := by
  intro s hg hrst hrsp htotal hroom htxr
  obtain ⟨_, _, hunanswered⟩ := stalledTransportTakesAPrefix s hg hrst hrsp
  obtain ⟨u, t, hexec, ht, hseq, hpos, _, hstep⟩ := hunanswered (by simpa [htxr] using htotal) (by simp [hroom])
  have hfirst : (frameOf s).take s.cfg.maxBytes = packetOf s 1 := by
    rw [frameOf_eq_restOfFrame htotal, take_restOfFrame s 1 (m := s.cfg.maxBytes) (pos := 0) le_rfl]
    simp
  refine ⟨u, t, hexec, ?_, BitVec.eq_of_toNat_eq (by simpa [htxr] using hseq), hpos, hstep⟩
  simpa [htxr, hroom, hfirst] using ht

/-! ### What a frame depends on (43_packetizer.md R217, R219, R224) -/

theorem extract_failed (high : BitVec 24) (failed : Byte) : (high ++ failed).extractLsb' 0 8 = failed :=
  BitVec.extractLsb'_append_eq_right

theorem extract_above_failed (high : BitVec 24) (failed : Byte) : (high ++ failed).extractLsb' 8 24 = high :=
  BitVec.extractLsb'_append_eq_left

/-- Settles O54: the answers stand in the response's low byte and in the answers left alone. -/
theorem failedSendsOnlyCount : Obligations.FailedSendsOnlyCount := by
  intro s xs ys hg hroom hxs hys
  have hrun (answers : List SendResult) (h : s.totalPkts.toNat ≤ answers.length) :=
    exec_upload_completes (s := { s with txr := answers }) hg.cfgOk hg.frameReadable (by simp [hroom]) h
  have hlow (answers : List SendResult) : (BitVec.ofNat 8 (failures (answers.take s.totalPkts.toNat))).toNat =
      failures (answers.take s.totalPkts.toNat) :=
    Nat.mod_eq_of_lt ((failures_take_le answers _).trans_lt s.totalPkts.isLt)
  refine ⟨_, _, hrun xs hxs, hrun ys hys, rfl, rfl, ?_, ?_, ?_⟩
  · exact congrArg some ((extract_above_failed _ _).trans (extract_above_failed _ _).symm)
  · exact congrArg some ((congrArg BitVec.toNat (extract_failed _ _)).trans (hlow xs))
  · exact congrArg some ((congrArg BitVec.toNat (extract_failed _ _)).trans (hlow ys))

/-- The LEDs of the packets before packet `k`, and those of one more. -/
theorem leds_before_add {k : Nat} (hk : 1 ≤ k) (per : Nat) : (k - 1) * per + per = k * per := by
  rw [← Nat.succ_mul, Nat.succ_eq_add_one, Nat.sub_add_cancel hk]

/-- A packet shows of the FrameBuffer its own entries alone. -/
theorem packetByte_congr {s : State} {fb' : Memory Hsv} {k : Nat} (hw : s.cfg.WellFormed) (hk : 1 ≤ k)
    (h : ∀ i, i < k * s.cfg.ledsPerPacket → Memory.lookup fb' i = readEntry s i) (off : Nat) :
    packetByte { s with fb := fb' } k off = packetByte s k off := by
  by_cases hin : off < 6 + 3 * tripletCount s.cfg s.ledCount.toNat k
  · have hfit : tripletCount s.cfg s.ledCount.toNat k ≤ s.cfg.ledsPerPacket := Nat.min_le_left _ _
    have hper : 1 ≤ s.cfg.ledsPerPacket := (triplets_fit hw).1
    have hled : (k - 1) * s.cfg.ledsPerPacket + (off - 6) / 3 < k * s.cfg.ledsPerPacket := by
      rw [← leds_before_add hk]
      omega
    have hentry : readEntry { s with fb := fb' } ((k - 1) * s.cfg.ledsPerPacket + (off - 6) / 3) =
        readEntry s ((k - 1) * s.cfg.ledsPerPacket + (off - 6) / 3) := h _ hled
    simp only [packetByte, pixelOrBlack, pixel, hentry]
    rfl
  · simp only [packetByte, hin, if_false]

theorem frameOf_congr {s : State} {fb' : Memory Hsv} (hw : s.cfg.WellFormed)
    (h : ∀ i, i < s.totalPkts.toNat * s.cfg.ledsPerPacket → Memory.lookup fb' i = readEntry s i) :
    frameOf { s with fb := fb' } = frameOf s := by
  have hpacket (k : Nat) (hk : k ∈ List.range' 1 s.totalPkts.toNat) :
      packetOf { s with fb := fb' } k = packetOf s k := by
    obtain ⟨hlow, hhigh⟩ := List.mem_range'_1.mp hk
    have hcarried : k * s.cfg.ledsPerPacket ≤ s.totalPkts.toNat * s.cfg.ledsPerPacket :=
      Nat.mul_le_mul_right _ (by omega)
    simp only [packetOf, packetByte_congr hw hlow fun i hi => h i (hi.trans_le hcarried)]
  exact List.flatMap_congr hpacket

/-- A frame that falls short of the strip has no room to spare in any packet (43_packetizer.md R219). -/
theorem tripletCount_of_undercount {c : Config} {n total k : Nat} (hunder : total * c.ledsPerPacket < n) (hlow : 1 ≤ k)
    (hhigh : k ≤ total) : tripletCount c n k = c.ledsPerPacket := by
  have hlast := leds_before_add hlow c.ledsPerPacket
  have hcarried : k * c.ledsPerPacket ≤ total * c.ledsPerPacket := Nat.mul_le_mul_right _ hhigh
  exact Nat.min_eq_left (by omega)

/-- Settles O57: the frame of the closed form is the same, and so are its answers. -/
theorem undercountedTailIsNeverSent : Obligations.UndercountedTailIsNeverSent := by
  intro s fb' hg hunder
  refine ⟨fun k => tripletCount_of_undercount hunder, fun hsame hroom hans => ?_⟩
  have hr' : FrameReadable { s with fb := fb' } := fun k hk => by
    have hentry : readEntry { s with fb := fb' } k = readEntry s k := hsame k (hk.trans_le (Nat.min_le_right _ _))
    rw [hentry]
    exact hg.frameReadable k hk
  have hfree (r : Nat) (h : s.txRoom = some r) : s.totalPkts.toNat * s.cfg.maxBytes ≤ r := by simp [hroom] at h
  refine ⟨_, _, exec_upload_completes hg.cfgOk hg.frameReadable hfree hans,
    exec_upload_completes (s := { s with fb := fb' }) hg.cfgOk hr' hfree hans, ?_, rfl, rfl⟩
  exact congrArg (s.tx ++ ·) (frameOf_congr hg.cfgOk hsame)

theorem applyBright_zero (c : Rgb) : applyBright 0#8 c = { red := 0#8, green := 0#8, blue := 0#8 } := by
  simp [applyBright]

theorem pixelOrBlack_of_dark {s : State} (h : s.bright = 0#8) (i : Nat) :
    pixelOrBlack s i = { red := 0#8, green := 0#8, blue := 0#8 } := by
  cases hc : readEntry s i with
  | none => simp [pixelOrBlack, pixel, hc]
  | some c => rw [pixelOrBlack_of_readEntry hc, h, applyBright_zero]

theorem channel_black (ch : Nat) : channel { red := 0#8, green := 0#8, blue := 0#8 } ch = 0#8 := by
  simp [channel]

/-- Between the header and the end marker, a dark frame is zero. -/
theorem packetByte_of_dark {s : State} (h : s.bright = 0#8) (k : Nat) {off : Nat} (hlow : 6 ≤ off)
    (hhigh : off + 1 < s.cfg.maxBytes) : packetByte s k off = 0x00#8 := by
  by_cases hin : off < 6 + 3 * tripletCount s.cfg s.ledCount.toNat k
  · unfold packetByte
    iterate 7 rw [if_neg (by omega)]
    rw [if_pos hin, pixelOrBlack_of_dark h, channel_black]
  · exact packetByte_slack k (Nat.not_lt.mp hin) hhigh

/-- Settles O59: the frame has its normal length, and `packetByte_of_dark` is its payload. -/
theorem zeroBrightnessSendsDarkPackets : Obligations.ZeroBrightnessSendsDarkPackets := by
  intro s t hg hdark hroom hans hexec
  rw [execUpload_completes hg hroom hans] at hexec
  cases hexec
  refine ⟨frameOf s, rfl, frameOf_length s, fun k off hk hlow hhigh => ?_⟩
  rw [frameOf_data hk (by omega), packetByte_of_dark hdark _ hlow hhigh]

end Sys2Proof.Machine

/-! ## The family of 60_exceptions.md

Every outcome of a command is an error status from the table of R241, with no state change, or a response without an
error or none yet; from that follow which command can answer which status (O20) and that an error changes nothing (O19).
What the source lets pass silently answers OK (O40). -/

namespace Sys2Proof.Machine

/-! ### The fields of a response word (30_encoding.md R87) -/

@[simp] theorem responseWord_status (st : Status) (data : BitVec 24) :
    (responseWord st data).extractLsb' 24 8 = st.code :=
  BitVec.extractLsb'_append_eq_left

@[simp] theorem responseWord_data (st : Status) (data : BitVec 24) : (responseWord st data).extractLsb' 0 24 = data :=
  BitVec.extractLsb'_append_eq_right

/-! ### The errors of each command (60_exceptions.md R241) -/

/-- `Reports i st`: the error status `st` is one of those that R241 gives the command `i`. -/
inductive Reports : Instr → Status → Prop where
  | field (reg x : Half) : Reports (.wrctl reg x) .errField
  | index (k : Half) : Reports (.getled k) .errIndex
  | setupCount (n : Half) : Reports (.setup n) .errCount
  | resizeCount (n : Half) : Reports (.resize n) .errCount
  | readReg (reg : Half) : Reports (.rdctl reg) .errReg
  | writeReg (reg x : Half) : Reports (.wrctl reg x) .errReg

/-- The command does nothing but answer one of its errors. -/
def Raises (i : Instr) (s : State) : Prop := ∃ st, Reports i st ∧ exec i s = .next (raise st s)

theorem raises_or_answersOk_wrctl (reg x : Half) (s : State) :
    Raises (.wrctl reg x) s ∨ AnswersOk (.wrctl reg x) s := by
  by_cases hreg : BadRegister (encode (.wrctl reg x))
  · exact .inl ⟨_, .writeReg reg x, exec_of_badRegister hreg s⟩
  · by_cases hval : WideValue (encode (.wrctl reg x))
    · exact .inl ⟨_, .field reg x, exec_of_wideValue hval s⟩
    · exact .inr (answersOk_wrctl hreg hval s)

/-- A command other than `UPLOAD` that answers at all answers one of its errors or OK, in any state. -/
theorem raises_or_answersOk {i : Instr} {s t : State} (hi : i ≠ .upload) (h : exec i s = .next t) :
    Raises i s ∨ AnswersOk i s := by
  cases i with
  | upload => exact absurd rfl hi
  | nop => exact .inr ⟨_, _, rfl, rfl⟩
  | cvtrb => exact .inr ⟨_, _, rfl, rfl⟩
  | cvtsp => exact .inr ⟨_, _, rfl, rfl⟩
  | fill => exact .inr ⟨_, _, rfl, rfl⟩
  | fillr => exact .inr ⟨_, _, rfl, rfl⟩
  | rainbow => exact .inr ⟨_, _, rfl, rfl⟩
  | setup n =>
    by_cases hn : s.cfg.ledMax < n.toNat
    · exact .inl ⟨_, .setupCount n, if_pos hn⟩
    · exact .inr ⟨_, _, exec_setup_fits (Nat.not_lt.mp hn), rfl⟩
  | resize n =>
    by_cases hn : s.cfg.ledMax < n.toNat
    · exact .inl ⟨_, .resizeCount n, if_pos hn⟩
    · exact .inr ⟨_, _, exec_resize_fits (Nat.not_lt.mp hn), rfl⟩
  | setled k c =>
    by_cases hk : k.toNat < s.ledCount.toNat
    · exact .inr ⟨_, _, exec_setled_visible c hk, rfl⟩
    · exact .inr ⟨_, _, if_neg hk, rfl⟩
  | getled k =>
    by_cases hk : k.toNat < s.ledCount.toNat
    · cases hc : readEntry s k.toNat with
      | none => rw [exec_getled_unwritten hk hc] at h; cases h
      | some c => exact .inr ⟨_, _, exec_getled_visible hk hc, rfl⟩
    · exact .inl ⟨_, .index k, exec_getled_hidden hk⟩
  | rdctl reg =>
    by_cases hreg : BadRegister (encode (.rdctl reg))
    · exact .inl ⟨_, .readReg reg, exec_of_badRegister hreg s⟩
    · exact .inr (answersOk_rdctl hreg s)
  | wrctl reg x => exact raises_or_answersOk_wrctl reg x s

/-- A response on the response channel, if there is one, is no error. -/
def NoErrorReported (t : State) : Prop := ∀ r, t.rsp = some r → r.extractLsb' 24 8 = 0x00#8

theorem noErrorReported_respond (data : BitVec 24) (s : State) : NoErrorReported (respond .ok data s) := by
  intro r hr
  cases hr
  exact responseWord_status .ok data

theorem WaitsOrAnswersOk.noErrorReported {t : State} (h : WaitsOrAnswersOk t) : NoErrorReported t := by
  intro r hr
  obtain ⟨_, hnone⟩ | ⟨_, data, hok⟩ := h
  · rw [hnone] at hr; cases hr
  · rw [hok] at hr; cases hr; exact responseWord_status .ok data

/-- All that a command run with the response channel free can leave there. -/
theorem exec_raises_or_noError {i : Instr} {s t : State} (hrsp : s.rsp = none) (h : exec i s = .next t) :
    (∃ st, Reports i st ∧ t = raise st s) ∨ NoErrorReported t := by
  by_cases hi : i = .upload
  · subst hi
    exact .inr (execUpload_waitsOrAnswersOk hrsp h).noErrorReported
  · obtain ⟨st, hst, hexec⟩ | ⟨t', data, hexec, _⟩ := raises_or_answersOk hi h
    · rw [hexec] at h; cases h; exact .inl ⟨st, hst, rfl⟩
    · rw [hexec] at h; cases h; exact .inr (noErrorReported_respond data t')

/-- The same of a command word, which may also be an illegal one (30_encoding.md R90, R91). -/
theorem runWord_raises_or_noError {w : CmdWord} {s t : State} (hrsp : s.rsp = none) (h : runWord w s = .next t) :
    (∃ st, t = raise st s) ∨ NoErrorReported t := by
  cases hdec : decode w with
  | error e => rw [runWord_of_error hdec] at h; cases h; exact .inl ⟨_, rfl⟩
  | ok i =>
    rw [runWord_of_ok hdec] at h
    exact (exec_raises_or_noError hrsp h).imp_left fun ⟨st, _, ht⟩ => ⟨st, ht⟩

/-- Settles O19: what answers an error is a `raise` in the state in which the word was accepted. -/
theorem anErrorChangesNothing : Obligations.AnErrorChangesNothing := by
  intro s t w rest r hacc hstep hr herror
  rw [step_accepting hacc] at hstep
  obtain ⟨st, rfl⟩ | hok := runWord_raises_or_noError (accepted_rsp s rest) hstep
  · cases hr
    exact ⟨rfl, responseWord_data st 0#24⟩
  · exact absurd (hok r hr) herror

/-- Settles O20: the codes of the statuses in `Reports`. -/
theorem statusCodesByCommand : Obligations.StatusCodesByCommand := by
  intro i s t r hrsp hexec hr
  obtain ⟨st, hst, rfl⟩ | hok := exec_raises_or_noError hrsp hexec
  · cases hr
    rw [responseWord_status]
    cases hst with
    | field reg x => exact .inr (.inl ⟨rfl, reg, x, rfl⟩)
    | index k => exact .inr (.inr (.inl ⟨rfl, k, rfl⟩))
    | setupCount n => exact .inr (.inr (.inr (.inl ⟨rfl, n, .inl rfl⟩)))
    | resizeCount n => exact .inr (.inr (.inr (.inl ⟨rfl, n, .inr rfl⟩)))
    | readReg reg => exact .inr (.inr (.inr (.inr ⟨rfl, .inl ⟨reg, rfl⟩⟩)))
    | writeReg reg x => exact .inr (.inr (.inr (.inr ⟨rfl, .inr ⟨reg, x, rfl⟩⟩)))
  · exact .inl (hok r hr)

/-! ### What is not an error (60_exceptions.md R243) -/

theorem exec_setled_hidden {k : Half} (c : Hsv) {s : State} (hk : ¬ k.toNat < s.ledCount.toNat) :
    exec (.setled k c) s = .next (respond .ok 0#24 s) :=
  if_neg hk

/-- A command whose range of entries is empty writes none. -/
theorem writesNothing_of_exec {i : Instr} {lo hi : Nat} {f : Nat → Hsv} {s : State} (hempty : hi ≤ lo)
    (h : exec i s = .next (respond .ok 0#24 (writeEntries lo hi f s))) :
    ∃ t, exec i s = .next t ∧ t = { s with fb := t.fb, rsp := some (0x00#8 ++ 0#24) } ∧
      ∀ k, readEntry t k = readEntry s k := by
  obtain ⟨t, hexec, hframe, hread⟩ := writesRange_of_exec h
  exact ⟨t, hexec, hframe, fun k => by rw [hread, if_neg (by omega)]⟩

/-- A frame loop stops in a wait for the Transport or at the end of the frame (43_packetizer.md R216, R223), whatever
stood on the response channel before. -/
theorem frameLoop_waits_or_endFrame (n : Nat) {s t : State} {u : Upload} (h : frameLoop n s u = .next t) :
    t.upload.isSome = true ∨ ∃ failed s', t = endFrame failed s' := by
  induction n generalizing s u with
  | zero =>
    obtain ⟨hwait, _⟩ | ⟨r, rest, _, _, hret⟩ := sendPacket_cases s u
    · rw [frameLoop_waits _ hwait] at h; cases h; exact .inl rfl
    · rw [frameLoop_zero_returns hret] at h; cases h; exact .inr ⟨_, _, rfl⟩
  | succ n ih =>
    obtain ⟨hwait, _⟩ | ⟨r, rest, _, _, hret⟩ := sendPacket_cases s u
    · rw [frameLoop_waits _ hwait] at h; cases h; exact .inl rfl
    · cases hbuild : buildPacket { handOver s u with txr := rest } (u.seq + 1#8) u.cur (countFailure r u.failed) with
      | none => rw [frameLoop_succ_faults hret hbuild] at h; cases h
      | some v => rw [frameLoop_succ_returns hret hbuild] at h; exact ih h

theorem execUpload_waits_or_endFrame {s t : State} (h : exec .upload s = .next t) :
    t.upload.isSome = true ∨ ∃ failed s', t = endFrame failed s' := by
  simp only [exec, execUpload] at h
  split at h
  · cases h; exact .inr ⟨_, _, rfl⟩
  · split at h
    · exact frameLoop_waits_or_endFrame _ h
    · cases h

/-- An `UPLOAD` that ends answers OK: a failed send is counted in the data, not in the status (R245). -/
theorem execUpload_ended {s t : State} (h : exec .upload s = .next t) (hended : t.upload = none) :
    ∃ data : BitVec 24, t.rsp = some (0x00#8 ++ data) := by
  obtain hwaits | ⟨failed, s', rfl⟩ := execUpload_waits_or_endFrame h
  · simp [hended] at hwaits
  · exact ⟨_, rfl⟩

/-- Settles O40: the ranges of the writing commands are empty, and so is the frame of an empty FrameBuffer. -/
theorem silentCasesAnswerOk : Obligations.SilentCasesAnswerOk := by
  refine ⟨fun a c s ha => exec_setled_hidden c (Nat.not_lt.mpr ha),
    fun a n c s hrange => writesNothing_of_exec hrange rfl, fun b c s hcount htotal => ?empty,
    fun s t => execUpload_ended⟩
  have hnone : s.ledCount.toNat ≤ 0 := by rw [hcount]; rfl
  exact ⟨writesNothing_of_exec hnone rfl, writesNothing_of_exec hnone rfl, emptyFrameSendsNothing s htotal⟩

end Sys2Proof.Machine

/-! ## The family of 70_reset_and_hazards.md

What the reset state holds (O7) and what a step with the reset line high leaves (O8). -/

namespace Sys2Proof.Machine

/-- After reset all entries are invisible (R271), for there is no index below a `LEDCOUNT` of 0. -/
theorem resetWith_entry_hidden (cfg : Config) (i : Nat) : ¬ i < (State.resetWith cfg).ledCount.toNat :=
  Nat.not_lt_zero i

/-- Settles O7: the fields of `State.resetWith` as it lists them, and the two initial values of the default
configuration. -/
theorem resetLeavesTheResetState : Obligations.ResetLeavesTheResetState :=
  ⟨fun cfg => ⟨rfl, rfl, rfl, rfl, rfl, resetWith_entry_hidden cfg, rfl, rfl⟩, rfl, rfl, rfl⟩

/-- Settles O8: the reset line is looked at before the response, the `UPLOAD` and the command word are, so the step is
`resetBlock` whatever is in progress, and the statement writes that out. -/
theorem resetLineAbandonsTheCommand : Obligations.ResetLineAbandonsTheCommand := fun _ hw hrst =>
  step_resetting hw hrst

end Sys2Proof.Machine
